-- ==== Sys2Proof/Word.lean ====
section
/-!
DEFINITION. The word types of the block: every item that crosses an interface, every slot and the StatusRegister is one byte
(30_encoding.md R80); a descriptor is one 16-bit number (30_encoding.md R82).
-/

namespace Sys2Proof

/-- One byte: a slot, the StatusRegister, a bus transaction (R80). Bit 7 is the most significant (R8). -/
abbrev Byte := BitVec 8

/-- One descriptor word of format OP16 (R82). It is a number and has no byte order. -/
abbrev Word := BitVec 16

end Sys2Proof
end

