-- ==== Sys2Proof/Syntax.lean ====
section
/-!
DEFINITION. The operations of the block: one constructor per row of spec/opcode_table.json (30_encoding.md R84), the two operand
types channel and source, the agents that issue operations (R87), and the descriptor as it is issued (R82, R85).
-/

namespace Sys2Proof

/-- A channel `c`: Inbound (host to device) or Outbound (device to host) (00_scope.md R2, R8). -/
inductive Channel where
  | inbound
  | outbound
  deriving DecidableEq, Repr

/-- An interrupt source `s`: read strobe, write strobe, media presence (R8, R155). -/
inductive Source where
  | rd
  | wr
  | mp
  deriving DecidableEq, Repr

/-- Who issues a descriptor (00_scope.md R7, 30_encoding.md R87). -/
inductive Agent where
  | mainLoop
  | host
  | line
  deriving DecidableEq, Repr

/-- One operation of the block, a constructor per row of the opcode table (R84). -/
inductive Instr where
  /-- PUSH c, b (R100). -/
  | push (c : Channel) (b : Byte)
  /-- POP c (R101). -/
  | pop (c : Channel)
  /-- PUSHBLOCK c, bytes (R102). -/
  | pushBlock (c : Channel) (bytes : List Byte)
  /-- ISEMPTY c (R103). -/
  | isEmpty (c : Channel)
  /-- ISFULL c (R104). -/
  | isFull (c : Channel)
  /-- SIZE c (R105). -/
  | size (c : Channel)
  /-- CLEAR c (R106). -/
  | clear (c : Channel)
  /-- STWR v (R120). -/
  | stwr (v : Byte)
  /-- IRQEN RD (R121). -/
  | irqenRd
  /-- IRQEN WR (R121). -/
  | irqenWr
  /-- IRQEN MP (R121). -/
  | irqenMp
  /-- IRQDIS RD (R122). -/
  | irqdisRd
  /-- IRQDIS WR (R122). -/
  | irqdisWr
  /-- IRQDIS MP (R122). -/
  | irqdisMp
  /-- RDSTB, an edge on the read strobe (R130). -/
  | rdstb
  /-- WRSTB b, an edge on the write strobe with byte b on the bus (R131). -/
  | wrstb (b : Byte)
  /-- MPEDGE, an edge on the media-presence line (R132). -/
  | mpedge
  deriving DecidableEq, Repr

/-- A descriptor as an agent issues it: the 16-bit word and the operand bytes that follow it (R82, R85). -/
structure Desc where
  word : Word
  operands : List Byte
  deriving DecidableEq, Repr

end Sys2Proof
end

