-- ==== Sys2Proof/WellFormed.lean ====
section
/-!
DEFINITION. Which operations have a descriptor: the 8-bit `imm` limits a PUSHBLOCK to 255 bytes (30_encoding.md R85). Every
other constructor's operands fit their fields by their types.
-/

namespace Sys2Proof

/-- The longest block a descriptor can name (R85: `L <= 255`). -/
def maxBlock : Nat := 255

/-- An operation whose operands fit the descriptor's fields. -/
abbrev Instr.wellFormed : Instr → Prop
  | .pushBlock _ bytes => bytes.length ≤ maxBlock
  | .push _ _ | .pop _ | .isEmpty _ | .isFull _ | .size _ | .clear _ | .stwr _
  | .irqenRd | .irqenWr | .irqenMp | .irqdisRd | .irqdisWr | .irqdisMp
  | .rdstb | .wrstb _ | .mpedge => True

end Sys2Proof
end

