-- ==== Sys2Proof/Decode.lean ====
section
/-!
DEFINITION. The decoder and the encoder of the descriptor format OP16 (30_encoding.md R82 to R87), the opcode table as rows of
match and mask (R84), and the table-word reading the host asks for. The decoder is total: every descriptor decodes to one
operation or is rejected by name (R86).
-/

namespace Sys2Proof

/-- Why a descriptor is illegal (R86, R85). -/
inductive DecodeError where
  /-- `opc` is 0x0, 0xB or 0xF. -/
  | reservedOpcode
  /-- A must-be-zero bit of `sel` is set (R83). -/
  | selNotZero
  /-- `imm` must be 0x00 and is not (R83). -/
  | immNotZero
  /-- Source `11` (R83). -/
  | reservedSource
  /-- The operand bytes are not the number that `opc` and `imm` give (R85; log 17). -/
  | operandCount
  deriving DecidableEq, Repr

/-- Field `opc`, bits 15:12 (R82). -/
def Desc.opc (d : Desc) : BitVec 4 := d.word.extractLsb' 12 4

/-- Field `sel`, bits 11:8 (R82). -/
def Desc.sel (d : Desc) : BitVec 4 := d.word.extractLsb' 8 4

/-- Field `imm`, bits 7:0 (R82). -/
def Desc.imm (d : Desc) : Byte := d.word.extractLsb' 0 8

/-- The channel of a channel operation: `sel[0]`, with `sel[3:1]` zero (R83). -/
def decodeChannel (sel : BitVec 4) : Except DecodeError Channel :=
  if sel = 0#4 then .ok .inbound
  else if sel = 1#4 then .ok .outbound
  else .error .selNotZero

/-- The source of a mask operation: `sel[1:0]`, with `11` reserved and `sel[3:2]` zero (R83). -/
def decodeSource (sel : BitVec 4) : Except DecodeError Source :=
  if sel = 0#4 then .ok .rd
  else if sel = 1#4 then .ok .wr
  else if sel = 2#4 then .ok .mp
  else if sel = 3#4 then .error .reservedSource
  else .error .selNotZero

/-- IRQEN of a source (R84: three rows of the table). -/
def irqenOf : Source → Instr
  | .rd => .irqenRd
  | .wr => .irqenWr
  | .mp => .irqenMp

/-- IRQDIS of a source (R84: three rows of the table). -/
def irqdisOf : Source → Instr
  | .rd => .irqdisRd
  | .wr => .irqdisWr
  | .mp => .irqdisMp

/-- A channel operation with an `imm` that must be zero. -/
def decodeChannelOnly (mk : Channel → Instr) (d : Desc) : Except DecodeError Instr :=
  match decodeChannel d.sel with
  | .error e => .error e
  | .ok c => if d.imm = 0#8 then .ok (mk c) else .error .immNotZero

/-- A mask operation: a source and an `imm` that must be zero. -/
def decodeMask (mk : Source → Instr) (d : Desc) : Except DecodeError Instr :=
  match decodeSource d.sel with
  | .error e => .error e
  | .ok src => if d.imm = 0#8 then .ok (mk src) else .error .immNotZero

/-- An operation with a byte in `imm` and `sel` zero. -/
def decodeByteOnly (mk : Byte → Instr) (d : Desc) : Except DecodeError Instr :=
  if d.sel = 0#4 then .ok (mk d.imm) else .error .selNotZero

/-- An operation with neither: `sel` and `imm` zero. -/
def decodePlain (i : Instr) (d : Desc) : Except DecodeError Instr :=
  if d.sel = 0#4 then (if d.imm = 0#8 then .ok i else .error .immNotZero) else .error .selNotZero

/-- PUSH c, b and PUSHBLOCK c, bytes: a channel and a byte-wide `imm`. -/
def decodeChannelWith (mk : Channel → Instr) (d : Desc) : Except DecodeError Instr :=
  match decodeChannel d.sel with
  | .error e => .error e
  | .ok c => .ok (mk c)

/-- The operation a descriptor's word selects (R84), its operand bytes taken as they stand. -/
def decodeWord (d : Desc) : Except DecodeError Instr :=
  match d.opc.toNat with
  | 0x1 => decodeChannelWith (fun c => .push c d.imm) d
  | 0x2 => decodeChannelOnly .pop d
  | 0x3 => decodeChannelWith (fun c => .pushBlock c d.operands) d
  | 0x4 => decodeChannelOnly .isEmpty d
  | 0x5 => decodeChannelOnly .isFull d
  | 0x6 => decodeChannelOnly .size d
  | 0x7 => decodeChannelOnly .clear d
  | 0x8 => decodeByteOnly .stwr d
  | 0x9 => decodeMask irqenOf d
  | 0xA => decodeMask irqdisOf d
  | 0xC => decodePlain .rdstb d
  | 0xD => decodeByteOnly .wrstb d
  | 0xE => decodePlain .mpedge d
  | _ => .error .reservedOpcode

/-- How many operand bytes follow the word: `imm` for `opc = 0x3`, none otherwise (R85). -/
def Desc.operandCount (d : Desc) : Nat := if d.opc = 3#4 then d.imm.toNat else 0

/-- The decoder (R84 to R86): total, and rejecting by name. -/
def decode (d : Desc) : Except DecodeError Instr :=
  match decodeWord d with
  | .error e => .error e
  | .ok i => if d.operands.length = d.operandCount then .ok i else .error .operandCount

/-- The selector of a channel (R83). -/
def encodeChannel : Channel → BitVec 4
  | .inbound => 0#4
  | .outbound => 1#4

/-- A descriptor from its three fields (R82). -/
def mkDesc (opc sel : BitVec 4) (imm : Byte) (operands : List Byte) : Desc :=
  { word := opc ++ sel ++ imm, operands := operands }

/-- The encoder, from the encoding column of R84. -/
def encode : Instr → Desc
  | .push c b => mkDesc 0x1#4 (encodeChannel c) b []
  | .pop c => mkDesc 0x2#4 (encodeChannel c) 0#8 []
  | .pushBlock c bytes => mkDesc 0x3#4 (encodeChannel c) (BitVec.ofNat 8 bytes.length) bytes
  | .isEmpty c => mkDesc 0x4#4 (encodeChannel c) 0#8 []
  | .isFull c => mkDesc 0x5#4 (encodeChannel c) 0#8 []
  | .size c => mkDesc 0x6#4 (encodeChannel c) 0#8 []
  | .clear c => mkDesc 0x7#4 (encodeChannel c) 0#8 []
  | .stwr v => mkDesc 0x8#4 0#4 v []
  | .irqenRd => mkDesc 0x9#4 0#4 0#8 []
  | .irqenWr => mkDesc 0x9#4 1#4 0#8 []
  | .irqenMp => mkDesc 0x9#4 2#4 0#8 []
  | .irqdisRd => mkDesc 0xA#4 0#4 0#8 []
  | .irqdisWr => mkDesc 0xA#4 1#4 0#8 []
  | .irqdisMp => mkDesc 0xA#4 2#4 0#8 []
  | .rdstb => mkDesc 0xC#4 0#4 0#8 []
  | .wrstb b => mkDesc 0xD#4 0#4 b []
  | .mpedge => mkDesc 0xE#4 0#4 0#8 []

/-- Who issues an operation (R87): the main loop opc 0x1 to 0xA, the host 0xC and 0xD, the media line 0xE. -/
def Instr.agent : Instr → Agent
  | .push _ _ | .pop _ | .pushBlock _ _ | .isEmpty _ | .isFull _ | .size _ | .clear _ | .stwr _
  | .irqenRd | .irqenWr | .irqenMp | .irqdisRd | .irqdisWr | .irqdisMp => .mainLoop
  | .rdstb | .wrstb _ => .host
  | .mpedge => .line

/-- A row of the opcode table: a word `w` selects it when `w AND mask = pattern` (R84). -/
structure TableRow where
  pattern : Word
  mask : Word
  deriving DecidableEq, Repr

/-- A word selects a row (R84). -/
abbrev TableRow.selects (r : TableRow) (w : Word) : Prop := w &&& r.mask = r.pattern

/-- The opcode table of R84, row by row as spec/opcode_table.json lists it. -/
def opcodeTable : List TableRow :=
  [⟨0x1000#16, 0xFE00#16⟩, ⟨0x2000#16, 0xFEFF#16⟩, ⟨0x3000#16, 0xFE00#16⟩, ⟨0x4000#16, 0xFEFF#16⟩,
   ⟨0x5000#16, 0xFEFF#16⟩, ⟨0x6000#16, 0xFEFF#16⟩, ⟨0x7000#16, 0xFEFF#16⟩, ⟨0x8000#16, 0xFF00#16⟩,
   ⟨0x9000#16, 0xFFFF#16⟩, ⟨0x9100#16, 0xFFFF#16⟩, ⟨0x9200#16, 0xFFFF#16⟩,
   ⟨0xA000#16, 0xFFFF#16⟩, ⟨0xA100#16, 0xFFFF#16⟩, ⟨0xA200#16, 0xFFFF#16⟩,
   ⟨0xC000#16, 0xFFFF#16⟩, ⟨0xD000#16, 0xFF00#16⟩, ⟨0xE000#16, 0xFFFF#16⟩]

/-- The descriptor that stands in the low bits of a number: the word in bits 15:0, operand byte `k` of a PUSHBLOCK in the eight
bits from `16 + 8k` on, every bit from `nbits` on zero (log 22). -/
def tableDesc (nbits w : Nat) : Desc :=
  let v := w % 2 ^ nbits
  let d : Desc := { word := BitVec.ofNat 16 v, operands := [] }
  { d with operands := (List.range d.operandCount).map (fun k => BitVec.ofNat 8 (v / 2 ^ (16 + 8 * k))) }

/-- The operation the decoder reads from a table word; none where it refuses. -/
def decodeTableWord (nbits w : Nat) : Option Instr :=
  match decode (tableDesc nbits w) with
  | .ok i => some i
  | .error _ => none

end Sys2Proof
end

