-- ==== Sys2Proof/Config.lean ====
section
/-!
DEFINITION. What an implementation fixes (the open parameters of 00_scope.md R6) and the free values (the draws of R9, R10).
Nothing here has a value: each `opaque` constant is uninterpreted, so a statement about the machine after reset holds for every
value of the parameters and for every draw.
-/

namespace Sys2Proof

/-- `MASKED_EDGE`: what an edge does while its source is masked (R6, R157). -/
inductive MaskedEdge where
  | lost
  | latched
  | either
  deriving DecidableEq, Repr, Inhabited

/-- The implementation parameters of R6. `State` carries them (log 1), and no step changes them. -/
structure Params where
  /-- `N_IN`, the usable slots of Inbound. -/
  nIn : Nat
  /-- `N_OUT`, the usable slots of Outbound. -/
  nOut : Nat
  /-- `IDX_W`, the width in bits of one index cell. -/
  idxW : Nat
  /-- `BUFFER_OVERRUN`, what the write-strobe handler writes to SR when Inbound is full. -/
  overrun : Byte
  /-- `BUFFER_UNDERRUN`, what the read-strobe handler drives when Outbound is empty. -/
  underrun : Byte
  /-- `HOTPLUG_CMD`, the pseudo-command byte the media-presence handler pushes. -/
  hotplug : Byte
  /-- `STATUS_INTERMEDIATE`, what the main loop writes to SR at the start of a command (R165). -/
  intermediate : Byte
  /-- `MASKED_EDGE`. -/
  maskedEdge : MaskedEdge
  /-- `DEADLINE`; no rule uses it (R201). -/
  deadline : Nat
  deriving DecidableEq, Repr

/-- The constraints of R6: each capacity is at least 1, an index cell holds every index of both channels, and
`STATUS_INTERMEDIATE` has bit 7 set. -/
abbrev Params.wf (p : Params) : Prop :=
  1 ≤ p.nIn ∧ 1 ≤ p.nOut ∧ p.nIn + 1 ≤ 2 ^ p.idxW ∧ p.nOut + 1 ≤ 2 ^ p.idxW ∧ p.intermediate.getLsbD 7 = true

/-- `H_OVR_TOP` of R6, a hypothesis a claim may name and no rule assumes. -/
abbrev Params.overrunTop (p : Params) : Prop := p.overrun.getLsbD 7 = true

/-- `H_UND_TOP` of R6, a hypothesis a claim may name and no rule assumes. -/
abbrev Params.underrunTop (p : Params) : Prop := p.underrun.getLsbD 7 = true

namespace Config

/-- `N_IN - 1`: any capacity of at least 1 is one more than some number (R6). -/
opaque nInLess1 : Nat
/-- `N_OUT - 1` (R6). -/
opaque nOutLess1 : Nat
/-- How many bits an index cell has beyond the fewest that hold every index (R6: `2^IDX_W >= M_c`). -/
opaque idxSlack : Nat
/-- `BUFFER_OVERRUN`, no value in the source (R6, R81). -/
opaque overrun : Byte
/-- `BUFFER_UNDERRUN`, no value in the source (R6, R81). -/
opaque underrun : Byte
/-- `HOTPLUG_CMD`, no value in the source (R6, R81). -/
opaque hotplug : Byte
/-- The low seven bits of `STATUS_INTERMEDIATE`, whose bit 7 is 1 (R6, R80). -/
opaque intermediateCode : BitVec 7
/-- `MASKED_EDGE` (R6, R157). -/
opaque maskedEdge : MaskedEdge
/-- `DEADLINE` (R6), used by no rule. -/
opaque deadline : Nat

/-- The parameters of the machine as it comes out of reset: every choice R6 allows is a value of the constants above. -/
def params : Params where
  nIn := nInLess1 + 1
  nOut := nOutLess1 + 1
  idxW := Nat.clog 2 (max nInLess1 nOutLess1 + 2) + idxSlack
  overrun := overrun
  underrun := underrun
  hotplug := hotplug
  intermediate := 1#1 ++ intermediateCode
  maskedEdge := maskedEdge
  deadline := deadline

/-- SR after reset: "a `draw`, fixed at reset, until the first write" (10_state.md R36). -/
opaque resetSr : Byte

/-- The byte of draw number `n`: what a host samples while RD is masked, what a deferred WRSTB samples (R157). -/
opaque freeByte : Nat → Byte

/-- The bit of draw number `n`: whether a masked edge is latched under `MASKED_EDGE = either` (R157). -/
opaque freeBit : Nat → Bool

/-- The number of draw number `n`: which early publication a PUSHBLOCK makes (R102), which cell a query reads first (R103). -/
opaque freeChoice : Nat → Nat

end Config

end Sys2Proof
end

