-- ==== Sys2Proof/Machine/State.lean ====
section
/-!
DEFINITION. The state of the block, as plain data: every cell of 10_state.md R20 (two channels, StatusRegister, interrupt enable
and pending bits, the main loop's control state), the parameters of 00_scope.md R6, the inputs of R35 (what the main loop will
issue, who moves next), and the trace of R11. Also the reasons a step can stop (60_exceptions.md R153, R154) and the state after
reset (R36, R190).
-/

namespace Sys2Proof.Machine

/-- The slots of one channel that hold a value, as (slot index, byte) pairs, indices strictly rising. An index that is not listed
is a slot that holds no value (R21, R36; log 5). -/
abbrev Memory := List Host.Cell

/-- One ByteChannel: its buffer and its two index cells (R21, R22). -/
structure Chan where
  buf : Memory
  head : Nat
  tail : Nat
  deriving DecidableEq, Repr

/-- One bit per interrupt source: the `IE` bits and the `PEND` bits (R30, R31). -/
structure Lines where
  rd : Bool
  wr : Bool
  mp : Bool
  deriving DecidableEq, Repr

/-- The three queries (R103 to R105). -/
inductive Query where
  | isEmpty
  | isFull
  | size
  deriving DecidableEq, Repr

/-- The micro-step a main-loop operation is about to do, with the operation's operands and what its earlier micro-steps read
(R33: `InOp(op, k)`; R100 to R106, R120 to R122). The digit in a name is the rule's number of the micro-step. -/
inductive Micro where
  /-- PUSH 1: the full test. -/
  | push1 (c : Channel) (b : Byte)
  /-- PUSH 2: the slot write. -/
  | push2 (c : Channel) (b : Byte)
  /-- PUSH 3: the publication. -/
  | push3 (c : Channel) (b : Byte)
  /-- POP 1: the empty test. -/
  | pop1 (c : Channel)
  /-- POP 2: the slot read. -/
  | pop2 (c : Channel)
  /-- POP 3: the publication; `v` was read. -/
  | pop3 (c : Channel) (v : Byte)
  /-- PUSHBLOCK 1: the test for the whole block. -/
  | block1 (c : Channel) (bytes : List Byte)
  /-- PUSHBLOCK 2 and 3: `t` is the tail at the start, the first `written` bytes are in their slots, the first `published` of
  them are published. Every byte written: the next micro-step is step 3 or an earlier publication. -/
  | block2 (c : Channel) (bytes : List Byte) (t written published : Nat)
  /-- A query, before its first read. -/
  | query1 (q : Query) (c : Channel)
  /-- A query that has read `head` and is about to read `tail`. -/
  | queryTail (q : Query) (c : Channel) (h : Nat)
  /-- A query that has read `tail` and is about to read `head`. -/
  | queryHead (q : Query) (c : Channel) (t : Nat)
  /-- CLEAR 1: the head write. -/
  | clear1 (c : Channel)
  /-- CLEAR 2: the tail write. -/
  | clear2 (c : Channel)
  /-- STWR's one micro-step. -/
  | stwr1 (v : Byte)
  /-- IRQEN's one micro-step. -/
  | irqen1 (src : Source)
  /-- IRQDIS's one micro-step. -/
  | irqdis1 (src : Source)
  deriving DecidableEq, Repr

/-- The control state `ML` of the main loop (R33). -/
inductive MainLoop where
  /-- Between two operations. -/
  | idle
  /-- Inside an operation, about to do the micro-step named. -/
  | inOp (m : Micro)
  deriving DecidableEq, Repr

/-- The result of a main-loop operation (30_encoding.md R90). -/
inductive Res where
  | nothing
  | byte (v : Byte)
  | bit (b : Bool)
  | num (n : Nat)
  deriving DecidableEq, Repr

/-- One entry of the trace (00_scope.md R11). -/
inductive Obs where
  /-- A read-strobe event and the byte the host sampled. -/
  | read (v : Byte)
  /-- A write-strobe event and the byte the host wrote. -/
  | write (b : Byte)
  /-- A media-presence event. -/
  | media
  /-- A main-loop operation that completed, and its result. -/
  | op (i : Instr) (res : Res)
  deriving DecidableEq, Repr

/-- One entry of the schedule: which agent moves next (20_memory.md R59, 30_encoding.md R88; log 7). -/
inductive Turn where
  /-- The main loop runs, with no handler in between, every micro-step left of its operation (of the next one when idle). -/
  | mainLoop
  /-- The main loop does one micro-step; when idle it issues its next operation and is about to do that one's micro-step 1. -/
  | micro
  /-- The host issues a descriptor: an edge on a strobe line. -/
  | host (d : Desc)
  /-- The media line issues a descriptor: an edge on it. -/
  | line (d : Desc)
  /-- The interrupt context serves a latched edge of the source, if it may (60_exceptions.md R157). -/
  | deferred (src : Source)
  deriving DecidableEq, Repr

/-- Why the machine stops at a fault (60_exceptions.md R153). -/
inductive Fault where
  /-- Raised by MPEDGE when its edge is delivered while Inbound is full (R132). Safe: the spec gives the case no value. -/
  | hotplugPushOnFull
  /-- Raised by CLEAR c while a source that touches `c` is enabled (R106). Safe: the spec gives the case no value. -/
  | clearUnmasked (c : Channel)
  /-- Raised by a read of a slot that holds no value (R36, R38). Safe, and unreachable by R38. -/
  | unwrittenSlot (c : Channel) (i : Nat)
  /-- Raised by an access to a slot index outside `0 .. N_c` (R50; log 6). Safe, and unreachable by R37. -/
  | noSuchSlot (c : Channel) (i : Nat)
  deriving DecidableEq, Repr

/-- Why an operation is refused (60_exceptions.md R154). -/
inductive Refusal where
  /-- Raised by an arm of `exec` whose instruction has no meaning yet; no arm does now. Safe. -/
  | notModelled (mnemonic : String)
  /-- Raised by the issue of a descriptor that decodes to no operation (R86). Safe. -/
  | illegalDescriptor
  /-- Raised by the issue of a descriptor by another agent than R87 names. Safe. -/
  | wrongAgent
  /-- Raised by main-loop PUSH IN and PUSHBLOCK IN, and by POP OUT while `IE[RD] = 1` (R107). Safe. -/
  | roleViolation
  deriving DecidableEq, Repr

/-- The state of the machine. -/
structure State where
  /-- The parameters of R6 (log 1). -/
  par : Params
  /-- Inbound (R20). -/
  inb : Chan
  /-- Outbound (R20). -/
  outb : Chan
  /-- The StatusRegister `SR` (R27). -/
  sr : Byte
  /-- The interrupt enable bits `IE` (R30). -/
  ie : Lines
  /-- The pending bits `PEND` (R31). -/
  pend : Lines
  /-- The main loop's control state `ML` (R33). -/
  ml : MainLoop
  /-- How many draws have been taken: the model's own counter (log 2). -/
  draws : Nat
  /-- The operations the main loop has still to issue, the next first: an input (R35; log 7). -/
  prog : List Desc
  /-- Who moves next, the next first: an input (R35, R59; log 7). -/
  turns : List Turn
  /-- What an outside observer has seen, the newest first (R11; log 9). -/
  trace : List Obs
  deriving DecidableEq, Repr

/-- An empty channel whose slots hold no value (R36). -/
def Chan.reset : Chan := { buf := [], head := 0, tail := 0 }

/-- All three bits 0 (R36). -/
def Lines.zero : Lines := { rd := false, wr := false, mp := false }

/-- The state right after reset (10_state.md R36, 70_reset_and_hazards.md R190): both channels empty at index 0, no slot with a
value, SR a draw, every `IE` and `PEND` bit 0, ML idle; no input given and nothing observed yet. -/
def State.reset : State where
  par := Config.params
  inb := Chan.reset
  outb := Chan.reset
  sr := Config.resetSr
  ie := Lines.zero
  pend := Lines.zero
  ml := .idle
  draws := 0
  prog := []
  turns := []
  trace := []

end Sys2Proof.Machine
end

