-- ==== Sys2Proof/Machine/Operands.lean ====
section
/-!
DEFINITION. The operand forms: the cells a channel operand and a source operand name (10_state.md R20, R30), the two fields of a
status byte (R27, R80), which sources touch which channel (20_memory.md R64), and which channel a main-loop operation may name
(40_channel_ops.md R106, R107).
-/

namespace Sys2Proof.Machine

/-- The channel a channel operand names. -/
def State.chan (s : State) : Channel → Chan
  | .inbound => s.inb
  | .outbound => s.outb

/-- The state with the channel an operand names replaced. -/
def State.withChan (s : State) (c : Channel) (ch : Chan) : State :=
  { s with
    inb := match c with
      | .inbound => ch
      | .outbound => s.inb
    outb := match c with
      | .inbound => s.outb
      | .outbound => ch }

/-- `N_c`, the capacity of a channel (R6). -/
def State.cap (s : State) : Channel → Nat
  | .inbound => s.par.nIn
  | .outbound => s.par.nOut

/-- `M_c = N_c + 1`, the length of a channel's buffer (R6, R21). -/
def State.len (s : State) (c : Channel) : Nat := s.cap c + 1

/-- `head[c]` (R22). -/
def State.head (s : State) (c : Channel) : Nat := (s.chan c).head

/-- `tail[c]` (R22). -/
def State.tail (s : State) (c : Channel) : Nat := (s.chan c).tail

/-- The bit of a source. -/
def Lines.get (l : Lines) : Source → Bool
  | .rd => l.rd
  | .wr => l.wr
  | .mp => l.mp

/-- The bits with that of one source replaced. -/
def Lines.set (l : Lines) (src : Source) (b : Bool) : Lines :=
  match src with
  | .rd => { l with rd := b }
  | .wr => { l with wr := b }
  | .mp => { l with mp := b }

/-- `IE[s]` (R30). -/
def State.enabled (s : State) (src : Source) : Bool := s.ie.get src

/-- `PEND[s]` (R31). -/
def State.pending (s : State) (src : Source) : Bool := s.pend.get src

/-- Field `BYPASS` of a status byte, bit 7: 1 for an intermediate or exceptional value, 0 for a terminal one (R27, R80). -/
def statusBypass (v : Byte) : Bool := v.getLsbD 7

/-- Field `CODE` of a status byte, bits 6:0 (R27). -/
def statusCode (v : Byte) : BitVec 7 := v.extractLsb' 0 7

/-- Every source that touches a channel is masked: `RD` for Outbound; `WR` and `MP` for Inbound (R64, R106). -/
def State.sourcesMasked (s : State) : Channel → Bool
  | .inbound => !s.ie.wr && !s.ie.mp
  | .outbound => !s.ie.rd

/-- The main loop may PUSH or PUSHBLOCK into Outbound only (R107). -/
def pushAdmitted : Channel → Bool
  | .inbound => false
  | .outbound => true

/-- The main loop may POP Inbound, and Outbound only while `IE[RD] = 0` (R107). -/
def State.popAdmitted (s : State) : Channel → Bool
  | .inbound => true
  | .outbound => !s.ie.rd

/-- The length `L` of a block operand (R83, R102). -/
def blockLength (bytes : List Byte) : Nat := bytes.length

/-- Byte `k` of a block operand (R102). -/
def blockByte (bytes : List Byte) (k : Nat) : Byte := bytes.getD k 0#8

end Sys2Proof.Machine
end

