-- ==== Sys2Proof/Machine/Flags.lean ====
section
/-!
DEFINITION. Index arithmetic (20_memory.md R51, R52) and the derived conditions of a channel (10_state.md R23, R24): the block's
flags, computed from the index cells at the moment of use and stored nowhere.
-/

namespace Sys2Proof.Machine

/-- `(t - h) mod m`, the non-negative remainder (R8, R52). `h` is reduced first, so that the natural-number difference is exact
for every `h` and `t`. -/
def distance (m h t : Nat) : Nat := (t + (m - h % m)) % m

/-- `next_c(i) = (i + 1) mod M_c` (R51). -/
def State.nextIdx (s : State) (c : Channel) (i : Nat) : Nat := (i + 1) % s.len c

/-- `adv_c(i, L) = (i + L) mod M_c` (R51). -/
def State.advIdx (s : State) (c : Channel) (i n : Nat) : Nat := (i + n) % s.len c

/-- `size_c` from a head and a tail value (R24). -/
def State.sizeOfIdx (s : State) (c : Channel) (h t : Nat) : Nat := distance (s.len c) h t

/-- `empty_c` from a head and a tail value: `head = tail` (R23). -/
def emptyOfIdx (h t : Nat) : Bool := h == t

/-- `full_c` from a head and a tail value: `next_c(tail) = head` (R23). -/
def State.fullOfIdx (s : State) (c : Channel) (h t : Nat) : Bool := s.nextIdx c t == h

/-- `size_c`: the bytes enqueued (R24). -/
def State.size (s : State) (c : Channel) : Nat := s.sizeOfIdx c (s.head c) (s.tail c)

/-- `free_c = N_c - size_c`: the bytes that can still be pushed (R24). -/
def State.free (s : State) (c : Channel) : Nat := s.cap c - s.size c

/-- `empty_c` (R23, R24). -/
def State.empty (s : State) (c : Channel) : Bool := emptyOfIdx (s.head c) (s.tail c)

/-- `full_c` (R23, R24). -/
def State.full (s : State) (c : Channel) : Bool := s.fullOfIdx c (s.head c) (s.tail c)

end Sys2Proof.Machine
end

