-- ==== Sys2Proof/Machine/Ops.lean ====
section
/-!
DEFINITION. The named operations over memory, index cells, StatusRegister, interrupt bits and trace that every meaning is written
from (00_scope.md R9), and what stands for exceptions here: the arrival of an edge, enabled or masked (60_exceptions.md R156, R157,
R159). The block saves no pc and no status on entry and restores nothing on return (R150, R159, R160).
-/

namespace Sys2Proof.Machine

/-- Memory in canonical form: slot indices strictly rising. -/
abbrev Memory.wf (m : Memory) : Prop := m.Pairwise (fun a b => a.1 < b.1)

/-- What an index holds: no value where it is not listed (R36; log 5). -/
def Memory.read : Memory → Nat → Option Byte
  | [], _ => none
  | (j, v) :: rest, i => if i = j then some v else Memory.read rest i

/-- The memory with one index written, kept in canonical form. -/
def Memory.write : Memory → Nat → Byte → Memory
  | [], i, v => [(i, v)]
  | (j, w) :: rest, i, v =>
    if i < j then (i, v) :: (j, w) :: rest
    else if i = j then (i, v) :: rest
    else (j, w) :: Memory.write rest i v

/-- What slot `i` of channel `c` holds, if anything (R21). -/
def State.slot (s : State) (c : Channel) (i : Nat) : Option Byte := Memory.read (s.chan c).buf i

/-- `MemRead(c, i)` (R9): the slot must exist and hold a value (R36, R38, R50). -/
def slotRead (c : Channel) (i : Nat) (s : State) : Except Fault Byte :=
  if i < s.len c then
    match s.slot c i with
    | some v => .ok v
    | none => .error (.unwrittenSlot c i)
  else .error (.noSuchSlot c i)

/-- The state with slot `i` of channel `c` holding `v`. -/
def State.withSlot (s : State) (c : Channel) (i : Nat) (v : Byte) : State :=
  s.withChan c { s.chan c with buf := Memory.write (s.chan c).buf i v }

/-- `MemWrite(c, i, v)` (R9): the slot must exist (R50). -/
def slotWrite (c : Channel) (i : Nat) (v : Byte) (s : State) : Except Fault State :=
  if i < s.len c then .ok (s.withSlot c i v) else .error (.noSuchSlot c i)

/-- `head[c] <- v` (R9). -/
def State.setHead (s : State) (c : Channel) (v : Nat) : State := s.withChan c { s.chan c with head := v }

/-- `tail[c] <- v` (R9). -/
def State.setTail (s : State) (c : Channel) (v : Nat) : State := s.withChan c { s.chan c with tail := v }

/-- `SR <- v` (R9). -/
def State.setSr (s : State) (v : Byte) : State := { s with sr := v }

/-- `IE[s] <- b` (R9). -/
def State.setIe (s : State) (src : Source) (b : Bool) : State := { s with ie := s.ie.set src b }

/-- `PEND[s] <- b` (R9). -/
def State.setPend (s : State) (src : Source) (b : Bool) : State := { s with pend := s.pend.set src b }

/-- `ML <- m` (R9, R33). -/
def State.setMl (s : State) (m : MainLoop) : State := { s with ml := m }

/-- One more entry of the trace (R11). -/
def State.observe (s : State) (o : Obs) : State := { s with trace := o :: s.trace }

/-- The draw counter moved on by one (log 2). -/
def State.drawn (s : State) : State := { s with draws := s.draws + 1 }

/-- A push's two writes, slot before index: "stores at `tail` and advances it" (R60). The caller has tested for space. -/
def enqueue (c : Channel) (b : Byte) (s : State) : Except Fault State :=
  match slotWrite c (s.tail c) b s with
  | .ok t => .ok (t.setTail c (t.nextIdx c (t.tail c)))
  | .error f => .error f

/-- A pop's two accesses, slot before index: "reads at `head` and advances it" (R61). The caller has tested for data. -/
def dequeue (c : Channel) (s : State) : Except Fault (Byte × State) :=
  match slotRead c (s.head c) s with
  | .ok v => .ok (v, s.setHead c (s.nextIdx c (s.head c)))
  | .error f => .error f

/-- Whether an edge that meets its source masked is remembered (R157, `MASKED_EDGE`). -/
def State.latches (s : State) : Bool :=
  match s.par.maskedEdge with
  | .lost => false
  | .latched => true
  | .either => Config.freeBit s.draws

/-- An edge that arrives while its source is masked: lost or latched, as `MASKED_EDGE` allows (R157). The draw of its choice is
taken whatever the parameter is. -/
def maskedEdge (src : Source) (s : State) : State :=
  { s with pend := s.pend.set src (s.pend.get src || s.latches), draws := s.draws + 1 }

/-- An edge on line `src` (R156, R157, R159): its handler runs at once if the source is enabled; otherwise the edge is masked and
the outside sees `masked`. -/
def edge (src : Source) (handler : State → Except Fault (Obs × State)) (masked : State → Obs) (s : State) :
    Host.Outcome State Fault Refusal :=
  if s.enabled src then
    match handler s with
    | .ok (o, t) => .next (t.observe o)
    | .error f => .fault f
  else .next ((maskedEdge src s).observe (masked s))

end Sys2Proof.Machine
end

