-- ==== Sys2Proof/Machine/Micro.lean ====
section
/-!
DEFINITION. The micro-steps of the main-loop operations (10_state.md R33, 20_memory.md R59): one definition per numbered
micro-step of the rules in 40_channel_ops.md and 41_status_irq_ops.md, and what the main loop does with them: one micro-step, or
all that are left with no handler in between (30_encoding.md R88).
-/

namespace Sys2Proof.Machine

/-- What one micro-step does (00_scope.md R10). -/
inductive Progress where
  /-- The condition says hold: nothing changes, the micro-step is tried again later. -/
  | hold
  /-- The operation goes on to another micro-step. -/
  | go (m : Micro) (s : State)
  /-- The operation ends with its result. -/
  | done (res : Res) (s : State)
  /-- The model faults. -/
  | fault (f : Fault)

/-- PUSH 1: hold while full (R100). -/
def microPush1 (c : Channel) (b : Byte) (s : State) : Progress :=
  if s.full c then .hold else .go (.push2 c b) s

/-- PUSH 2: `MemWrite(c, tail[c], b)` (R100). -/
def microPush2 (c : Channel) (b : Byte) (s : State) : Progress :=
  match slotWrite c (s.tail c) b s with
  | .ok t => .go (.push3 c b) t
  | .error f => .fault f

/-- PUSH 3: `tail[c] <- next_c(tail[c])` (R100). -/
def microPush3 (c : Channel) (s : State) : Progress :=
  .done .nothing (s.setTail c (s.nextIdx c (s.tail c)))

/-- POP 1: hold while empty (R101). -/
def microPop1 (c : Channel) (s : State) : Progress :=
  if s.empty c then .hold else .go (.pop2 c) s

/-- POP 2: `v <- MemRead(c, head[c])` (R101). -/
def microPop2 (c : Channel) (s : State) : Progress :=
  match slotRead c (s.head c) s with
  | .ok v => .go (.pop3 c v) s
  | .error f => .fault f

/-- POP 3: `head[c] <- next_c(head[c])`, result `v` (R101). -/
def microPop3 (c : Channel) (v : Byte) (s : State) : Progress :=
  .done (.byte v) (s.setHead c (s.nextIdx c (s.head c)))

/-- PUSHBLOCK 1: hold while `free_c < L`; the tail at the start is kept (R102). -/
def microBlock1 (c : Channel) (bytes : List Byte) (s : State) : Progress :=
  if s.free c < blockLength bytes then .hold else .go (.block2 c bytes (s.tail c) 0 0) s

/-- PUSHBLOCK 2 and 3 (R102). `choice` names an earlier publication to make now: `tail[c] <- (t + choice) mod M_c`, admissible
when it publishes more than before, only bytes already in their slots, and not the whole block. Otherwise the next byte goes into
its slot, or, when all are there, the whole block is published and the operation ends. -/
def microBlock2 (choice : Nat) (c : Channel) (bytes : List Byte) (t written published : Nat) (s : State) : Progress :=
  if published < choice ∧ choice ≤ written ∧ choice < blockLength bytes then
    .go (.block2 c bytes t written choice) (s.setTail c (s.advIdx c t choice))
  else if written < blockLength bytes then
    match slotWrite c (s.advIdx c t written) (blockByte bytes written) s with
    | .ok u => .go (.block2 c bytes t (written + 1) published) u
    | .error f => .fault f
  else .done .nothing (s.setTail c (s.advIdx c t (blockLength bytes)))

/-- What a query answers from the two index values it read (R103 to R105). -/
def queryAnswer (q : Query) (c : Channel) (h t : Nat) (s : State) : Res :=
  match q with
  | .isEmpty => .bit (emptyOfIdx h t)
  | .isFull => .bit (s.fullOfIdx c h t)
  | .size => .num (s.sizeOfIdx c h t)

/-- A query's first read: the two cells are read in either order (R103). An even `choice` reads `head` first. -/
def microQuery1 (choice : Nat) (q : Query) (c : Channel) (s : State) : Progress :=
  if choice % 2 = 0 then .go (.queryTail q c (s.head c)) s else .go (.queryHead q c (s.tail c)) s

/-- A query's second read, of `tail`, and its answer (R103). -/
def microQueryTail (q : Query) (c : Channel) (h : Nat) (s : State) : Progress :=
  .done (queryAnswer q c h (s.tail c) s) s

/-- A query's second read, of `head`, and its answer (R103). -/
def microQueryHead (q : Query) (c : Channel) (t : Nat) (s : State) : Progress :=
  .done (queryAnswer q c (s.head c) t s) s

/-- CLEAR 1: `head[c] <- 0` (R106). -/
def microClear1 (c : Channel) (s : State) : Progress := .go (.clear2 c) (s.setHead c 0)

/-- CLEAR 2: `tail[c] <- 0` (R106). -/
def microClear2 (c : Channel) (s : State) : Progress := .done .nothing (s.setTail c 0)

/-- STWR: `SR <- v` (R120). -/
def microStwr (v : Byte) (s : State) : Progress := .done .nothing (s.setSr v)

/-- IRQEN: `IE[s] <- 1` (R121). -/
def microIrqen (src : Source) (s : State) : Progress := .done .nothing (s.setIe src true)

/-- IRQDIS: `IE[s] <- 0` (R122). -/
def microIrqdis (src : Source) (s : State) : Progress := .done .nothing (s.setIe src false)

/-- One micro-step. `choice` is the free number for what the rules leave open (R102, R103; log 12). -/
def micro (choice : Nat) (m : Micro) (s : State) : Progress :=
  match m with
  | .push1 c b => microPush1 c b s
  | .push2 c b => microPush2 c b s
  | .push3 c _ => microPush3 c s
  | .pop1 c => microPop1 c s
  | .pop2 c => microPop2 c s
  | .pop3 c v => microPop3 c v s
  | .block1 c bytes => microBlock1 c bytes s
  | .block2 c bytes t written published => microBlock2 choice c bytes t written published s
  | .query1 q c => microQuery1 choice q c s
  | .queryTail q c h => microQueryTail q c h s
  | .queryHead q c t => microQueryHead q c t s
  | .clear1 c => microClear1 c s
  | .clear2 c => microClear2 c s
  | .stwr1 v => microStwr v s
  | .irqen1 src => microIrqen src s
  | .irqdis1 src => microIrqdis src s

/-- The operation of a query. -/
def queryOp (q : Query) (c : Channel) : Instr :=
  match q with
  | .isEmpty => .isEmpty c
  | .isFull => .isFull c
  | .size => .size c

/-- The operation `op` of `InOp(op, k)` (R33). -/
def microOp : Micro → Instr
  | .push1 c b | .push2 c b | .push3 c b => .push c b
  | .pop1 c | .pop2 c | .pop3 c _ => .pop c
  | .block1 c bytes | .block2 c bytes _ _ _ => .pushBlock c bytes
  | .query1 q c | .queryTail q c _ | .queryHead q c _ => queryOp q c
  | .clear1 c | .clear2 c => .clear c
  | .stwr1 v => .stwr v
  | .irqen1 .rd => .irqenRd
  | .irqen1 .wr => .irqenWr
  | .irqen1 .mp => .irqenMp
  | .irqdis1 .rd => .irqdisRd
  | .irqdis1 .wr => .irqdisWr
  | .irqdis1 .mp => .irqdisMp

/-- The number `k` of `InOp(op, k)`, as the operation's rule numbers its micro-steps (R33). -/
def microNumber : Micro → Nat
  | .push1 _ _ | .pop1 _ | .block1 _ _ | .query1 _ _ | .queryTail _ _ _ | .queryHead _ _ _ | .clear1 _
  | .stwr1 _ | .irqen1 _ | .irqdis1 _ => 1
  | .push2 _ _ | .pop2 _ | .clear2 _ => 2
  | .push3 _ _ | .pop3 _ _ => 3
  | .block2 _ bytes _ written _ => if written < bytes.length then 2 else 3

/-- At most how many micro-steps an operation goes on with after this one when it makes no early publication. -/
def microsLeft : Micro → Nat
  | .block1 _ bytes => bytes.length + 1
  | .block2 _ bytes _ written _ => bytes.length - written
  | .push1 _ _ | .push2 _ _ | .push3 _ _ | .pop1 _ | .pop2 _ | .pop3 _ _ | .query1 _ _ | .queryTail _ _ _
  | .queryHead _ _ _ | .clear1 _ | .clear2 _ | .stwr1 _ | .irqen1 _ | .irqdis1 _ => 2

/-- The operation has ended: `ML <- Idle`, and the trace shows it with its result (R11, R33). -/
def complete (m : Micro) (res : Res) (s : State) : State := (s.setMl .idle).observe (.op (microOp m) res)

/-- What a micro-step's progress does to `ML` (R33): `held` is the state a hold leaves. -/
def settle (m : Micro) (held : State) : Progress → Host.Outcome State Fault Refusal
  | .hold => .next held
  | .go m' t => .next (t.setMl (.inOp m'))
  | .done res t => .next (complete m res t)
  | .fault f => .fault f

/-- The main loop does the one micro-step `m` it is about to do, with a fresh draw for what is left open. A hold takes none. -/
def oneMicro (m : Micro) (s : State) : Host.Outcome State Fault Refusal :=
  settle m s (micro (Config.freeChoice s.draws) m s.drawn)

/-- The main loop does micro-step `m` and every later one of its operation, with no handler in between, until it ends or holds
(R88). No early publication is made and a query reads `head` first: with no handler in between no one can tell (log 11). -/
def runMicros : Nat → Micro → State → Host.Outcome State Fault Refusal
  | 0, m, s => settle m (s.setMl (.inOp m)) (micro 0 m s)
  | fuel + 1, m, s =>
    match micro 0 m s with
    | .go m' t => runMicros fuel m' t
    | .hold => .next (s.setMl (.inOp m))
    | .done res t => .next (complete m res t)
    | .fault f => .fault f

/-- Every micro-step that is left, from `m` on. -/
def runFrom (m : Micro) (s : State) : Host.Outcome State Fault Refusal := runMicros (microsLeft m) m s

/-- What the test made "once, when the operation is issued" says (R106, R107). -/
inductive Admission where
  /-- The operation is issued and is about to do this micro-step. -/
  | admitted (m : Micro)
  /-- The model faults and no state changes. -/
  | fault (f : Fault)
  /-- The operation is refused and no state changes. -/
  | refused (r : Refusal)

/-- The main loop issues an operation and runs it with no handler in between (R88). Inside another operation it issues nothing
(R33: the next operation is issued after `ML <- Idle`). -/
def issueAndRun (a : Admission) (s : State) : Host.Outcome State Fault Refusal :=
  match s.ml with
  | .inOp _ => .next s
  | .idle =>
    match a with
    | .admitted m => runFrom m s
    | .fault f => .fault f
    | .refused r => .refused r

/-- The main loop issues an operation and is about to do its first micro-step. -/
def issueOnly (a : Admission) (s : State) : Host.Outcome State Fault Refusal :=
  match a with
  | .admitted m => .next (s.setMl (.inOp m))
  | .fault f => .fault f
  | .refused r => .refused r

end Sys2Proof.Machine
end

