-- ==== Sys2Proof/Machine/ChannelOps.lean ====
section
/-!
DEFINITION. The seven channel operations as the main loop issues them (40_channel_ops.md R100 to R107): for each, the test made
when it is issued and its meaning, the run of its micro-steps.
-/

namespace Sys2Proof.Machine

/-- PUSH is admitted on Outbound only (R107). -/
def admitPush (c : Channel) (b : Byte) : Admission :=
  if pushAdmitted c then .admitted (.push1 c b) else .refused .roleViolation

/-- PUSH c, b (R100). -/
def execPush (c : Channel) (b : Byte) (s : State) : Host.Outcome State Fault Refusal :=
  issueAndRun (admitPush c b) s

/-- POP is admitted on Inbound, and on Outbound while `IE[RD] = 0` (R107). -/
def admitPop (c : Channel) (s : State) : Admission :=
  if s.popAdmitted c then .admitted (.pop1 c) else .refused .roleViolation

/-- POP c (R101). -/
def execPop (c : Channel) (s : State) : Host.Outcome State Fault Refusal :=
  issueAndRun (admitPop c s) s

/-- PUSHBLOCK is admitted on Outbound only (R107). -/
def admitPushBlock (c : Channel) (bytes : List Byte) : Admission :=
  if pushAdmitted c then .admitted (.block1 c bytes) else .refused .roleViolation

/-- PUSHBLOCK c, bytes (R102). -/
def execPushBlock (c : Channel) (bytes : List Byte) (s : State) : Host.Outcome State Fault Refusal :=
  issueAndRun (admitPushBlock c bytes) s

/-- ISEMPTY is admitted on both channels (R107). -/
def admitIsEmpty (c : Channel) : Admission := .admitted (.query1 .isEmpty c)

/-- ISEMPTY c (R103). -/
def execIsEmpty (c : Channel) (s : State) : Host.Outcome State Fault Refusal :=
  issueAndRun (admitIsEmpty c) s

/-- ISFULL is admitted on both channels (R107). -/
def admitIsFull (c : Channel) : Admission := .admitted (.query1 .isFull c)

/-- ISFULL c (R104). -/
def execIsFull (c : Channel) (s : State) : Host.Outcome State Fault Refusal :=
  issueAndRun (admitIsFull c) s

/-- SIZE is admitted on both channels (R107). -/
def admitSize (c : Channel) : Admission := .admitted (.query1 .size c)

/-- SIZE c (R105). -/
def execSize (c : Channel) (s : State) : Host.Outcome State Fault Refusal :=
  issueAndRun (admitSize c) s

/-- CLEAR is admitted while every source that touches the channel is masked, and faults otherwise (R106). -/
def admitClear (c : Channel) (s : State) : Admission :=
  if s.sourcesMasked c then .admitted (.clear1 c) else .fault (.clearUnmasked c)

/-- CLEAR c (R106). -/
def execClear (c : Channel) (s : State) : Host.Outcome State Fault Refusal :=
  issueAndRun (admitClear c s) s

end Sys2Proof.Machine
end

