-- ==== Sys2Proof/Machine/Handlers.lean ====
section
/-!
DEFINITION. The bus line handlers (42_bus_handlers.md R130 to R134), each one indivisible step run when its edge is delivered; the
three events with what their edge does while the source is masked; and the deferred run of a latched edge (60_exceptions.md R157).
-/

namespace Sys2Proof.Machine

/-- The read-strobe handler: the driven byte and the state after (R130). SR is read once, for the test and for the value. -/
def readHandler (s : State) : Except Fault (Byte × State) :=
  if statusBypass s.sr then .ok (s.sr, s)
  else if s.empty .outbound then .ok (s.par.underrun, s)
  else dequeue .outbound s

/-- The write-strobe handler with byte `b` on the bus (R131). -/
def writeHandler (b : Byte) (s : State) : Except Fault State :=
  if s.full .inbound then .ok (s.setSr s.par.overrun) else enqueue .inbound b s

/-- The media-presence handler (R132). -/
def mediaHandler (s : State) : Except Fault State :=
  if s.full .inbound then .error .hotplugPushOnFull
  else
    match enqueue .inbound s.par.hotplug s with
    | .ok t => .ok (t.setIe .mp false)
    | .error f => .error f

/-- The read-strobe handler as the answer to a host transaction: the host samples the driven byte (R130). -/
def answerRead (s : State) : Except Fault (Obs × State) :=
  match readHandler s with
  | .ok (v, t) => .ok (.read v, t)
  | .error f => .error f

/-- The write-strobe handler as the answer to a host transaction (R131). -/
def answerWrite (b : Byte) (s : State) : Except Fault (Obs × State) :=
  match writeHandler b s with
  | .ok t => .ok (.write b, t)
  | .error f => .error f

/-- The media-presence handler as the answer to a fresh edge (R132). -/
def answerMedia (s : State) : Except Fault (Obs × State) :=
  match mediaHandler s with
  | .ok t => .ok (.media, t)
  | .error f => .error f

/-- RDSTB (R130); while RD is masked the host samples a bus no one drives, a draw (R157). -/
def execRdstb (s : State) : Host.Outcome State Fault Refusal :=
  edge .rd answerRead (fun t => .read (Config.freeByte t.draws)) s

/-- WRSTB b (R131); while WR is masked the byte is not stored and no overrun is reported (R157). -/
def execWrstb (b : Byte) (s : State) : Host.Outcome State Fault Refusal :=
  edge .wr (answerWrite b) (fun _ => .write b) s

/-- MPEDGE (R132); while MP is masked nothing but the latching happens (R157). -/
def execMpedge (s : State) : Host.Outcome State Fault Refusal :=
  edge .mp answerMedia (fun _ => .media) s

/-- The handler body of a deferred run (R157): the byte RD drives reaches no host transaction; WR samples the bus late, a draw. -/
def deferredHandler (src : Source) (s : State) : Except Fault State :=
  match src with
  | .rd =>
    match readHandler s with
    | .ok (_, t) => .ok t
    | .error f => .error f
  | .wr => writeHandler (Config.freeByte s.draws) s.drawn
  | .mp => mediaHandler s

/-- A deferred run is enabled while `IE[s] = 1` and `PEND[s] = 1` (R157). -/
def State.deferredEnabled (s : State) (src : Source) : Bool := s.enabled src && s.pending src

/-- The interrupt context serves a latched edge: `PEND[s] <- 0`, then the handler as one step. Where no deferred run of the source
is enabled nothing happens (R157). -/
def deferredRun (src : Source) (s : State) : Host.Outcome State Fault Refusal :=
  if s.deferredEnabled src then
    match deferredHandler src (s.setPend src false) with
    | .ok t => .next t
    | .error f => .fault f
  else .next s

end Sys2Proof.Machine
end

