-- ==== Sys2Proof/Machine/StatusOps.lean ====
section
/-!
DEFINITION. The status and mask operations (41_status_irq_ops.md R120 to R122): each a single micro-step, never held, never
refused.
-/

namespace Sys2Proof.Machine

/-- STWR is always admitted (R120). -/
def admitStwr (v : Byte) : Admission := .admitted (.stwr1 v)

/-- STWR v (R120). -/
def execStwr (v : Byte) (s : State) : Host.Outcome State Fault Refusal := issueAndRun (admitStwr v) s

/-- IRQEN RD is always admitted (R121). -/
def admitIrqenRd : Admission := .admitted (.irqen1 .rd)

/-- IRQEN RD (R121). -/
def execIrqenRd (s : State) : Host.Outcome State Fault Refusal := issueAndRun admitIrqenRd s

/-- IRQEN WR is always admitted (R121). -/
def admitIrqenWr : Admission := .admitted (.irqen1 .wr)

/-- IRQEN WR (R121). -/
def execIrqenWr (s : State) : Host.Outcome State Fault Refusal := issueAndRun admitIrqenWr s

/-- IRQEN MP is always admitted (R121). -/
def admitIrqenMp : Admission := .admitted (.irqen1 .mp)

/-- IRQEN MP (R121). -/
def execIrqenMp (s : State) : Host.Outcome State Fault Refusal := issueAndRun admitIrqenMp s

/-- IRQDIS RD is always admitted (R122). -/
def admitIrqdisRd : Admission := .admitted (.irqdis1 .rd)

/-- IRQDIS RD (R122). -/
def execIrqdisRd (s : State) : Host.Outcome State Fault Refusal := issueAndRun admitIrqdisRd s

/-- IRQDIS WR is always admitted (R122). -/
def admitIrqdisWr : Admission := .admitted (.irqdis1 .wr)

/-- IRQDIS WR (R122). -/
def execIrqdisWr (s : State) : Host.Outcome State Fault Refusal := issueAndRun admitIrqdisWr s

/-- IRQDIS MP is always admitted (R122). -/
def admitIrqdisMp : Admission := .admitted (.irqdis1 .mp)

/-- IRQDIS MP (R122). -/
def execIrqdisMp (s : State) : Host.Outcome State Fault Refusal := issueAndRun admitIrqdisMp s

end Sys2Proof.Machine
end

