-- ==== Sys2Proof/Machine/Dispatch.lean ====
section
/-!
DEFINITION. The dispatch of every operation to its meaning, one arm per constructor of Instr (30_encoding.md R84).
-/

namespace Sys2Proof.Machine

def exec (i : Instr) (s : State) : Host.Outcome State Fault Refusal :=
  match i with
  | .push c b => Sys2Proof.Machine.execPush c b s
  | .pop c => Sys2Proof.Machine.execPop c s
  | .pushBlock c bytes => Sys2Proof.Machine.execPushBlock c bytes s
  | .isEmpty c => Sys2Proof.Machine.execIsEmpty c s
  | .isFull c => Sys2Proof.Machine.execIsFull c s
  | .size c => Sys2Proof.Machine.execSize c s
  | .clear c => Sys2Proof.Machine.execClear c s
  | .stwr v => Sys2Proof.Machine.execStwr v s
  | .irqenRd => Sys2Proof.Machine.execIrqenRd s
  | .irqenWr => Sys2Proof.Machine.execIrqenWr s
  | .irqenMp => Sys2Proof.Machine.execIrqenMp s
  | .irqdisRd => Sys2Proof.Machine.execIrqdisRd s
  | .irqdisWr => Sys2Proof.Machine.execIrqdisWr s
  | .irqdisMp => Sys2Proof.Machine.execIrqdisMp s
  | .rdstb => Sys2Proof.Machine.execRdstb s
  | .wrstb b => Sys2Proof.Machine.execWrstb b s
  | .mpedge => Sys2Proof.Machine.execMpedge s

end Sys2Proof.Machine
end

