-- ==== Sys2Proof/Machine/Turns.lean ====
section
/-!
DEFINITION. How the agents move (00_scope.md R7, 20_memory.md R59): the issue of a descriptor by an agent (30_encoding.md R86,
R87), the turns of the schedule, what happens when the schedule is empty, and where a table word is placed to run next.
-/

namespace Sys2Proof.Machine

/-- An agent issues a descriptor: it must decode (R86) and be that agent's to issue (R87). -/
def issueBy (a : Agent) (d : Desc) (run : Instr → Host.Outcome State Fault Refusal) : Host.Outcome State Fault Refusal :=
  match decode d with
  | .error _ => .refused .illegalDescriptor
  | .ok i => if i.agent = a then run i else .refused .wrongAgent

/-- The test made when the main loop issues an operation (R106, R107). The events are not the main loop's to issue (R87). -/
def admissionOf (i : Instr) (s : State) : Admission :=
  match i with
  | .push c b => admitPush c b
  | .pop c => admitPop c s
  | .pushBlock c bytes => admitPushBlock c bytes
  | .isEmpty c => admitIsEmpty c
  | .isFull c => admitIsFull c
  | .size c => admitSize c
  | .clear c => admitClear c s
  | .stwr v => admitStwr v
  | .irqenRd => admitIrqenRd
  | .irqenWr => admitIrqenWr
  | .irqenMp => admitIrqenMp
  | .irqdisRd => admitIrqdisRd
  | .irqdisWr => admitIrqdisWr
  | .irqdisMp => admitIrqdisMp
  | .rdstb => .refused .wrongAgent
  | .wrstb _ => .refused .wrongAgent
  | .mpedge => .refused .wrongAgent

/-- The main loop runs with no handler in between: the rest of its operation, or, when idle, its next operation (R88). With
nothing left to issue it does work of its own outside the block and no cell changes. -/
def mainLoopTurn (s : State) : Host.Outcome State Fault Refusal :=
  match s.ml with
  | .inOp m => runFrom m s
  | .idle =>
    match s.prog with
    | [] => .next s
    | d :: rest => issueBy .mainLoop d (fun i => exec i { s with prog := rest })

/-- The main loop does one micro-step, or, when idle, issues its next operation (R33, R59). -/
def microTurn (s : State) : Host.Outcome State Fault Refusal :=
  match s.ml with
  | .inOp m => oneMicro m s
  | .idle =>
    match s.prog with
    | [] => .next s
    | d :: rest => issueBy .mainLoop d (fun i => issueOnly (admissionOf i s) { s with prog := rest })

/-- The host causes an edge on a strobe line (R7, R87). -/
def hostTurn (d : Desc) (s : State) : Host.Outcome State Fault Refusal := issueBy .host d (fun i => exec i s)

/-- The media line causes an edge (R7, R87). -/
def lineTurn (d : Desc) (s : State) : Host.Outcome State Fault Refusal := issueBy .line d (fun i => exec i s)

/-- One turn of the schedule. -/
def takeTurn (turn : Turn) (s : State) : Host.Outcome State Fault Refusal :=
  match turn with
  | .mainLoop => mainLoopTurn s
  | .micro => microTurn s
  | .host d => hostTurn d s
  | .line d => lineTurn d s
  | .deferred src => deferredRun src s

/-- What moves when the schedule is empty: the outside is silent and the block's own agents go on, a latched edge that may be
served first, then the main loop (70_reset_and_hazards.md R202; log 8). -/
def ownTurn (s : State) : Turn :=
  if s.deferredEnabled .rd then .deferred .rd
  else if s.deferredEnabled .wr then .deferred .wr
  else if s.deferredEnabled .mp then .deferred .mp
  else .micro

/-- The turn the next step takes: the next of the schedule, or the block's own when there is none (log 7, log 8). -/
def State.dueTurn (s : State) : Turn :=
  match s.turns with
  | [] => ownTurn s
  | turn :: _ => turn

/-- One step of the machine: the turn that is due, with the schedule moved past it (R59). -/
def nextTurn (s : State) : Host.Outcome State Fault Refusal := takeTurn s.dueTurn { s with turns := s.turns.tail }

/-- The state in which the next step issues a descriptor, by the agent its operation belongs to (R87). A descriptor that is
illegal is given to the main loop. -/
def placeDesc (d : Desc) (s : State) : State :=
  match (decode d).toOption.map Instr.agent with
  | some .host => { s with turns := .host d :: s.turns }
  | some .line => { s with turns := .line d :: s.turns }
  | _ => { s with ml := .idle, prog := d :: s.prog, turns := .mainLoop :: s.turns }

end Sys2Proof.Machine
end

