-- ==== Sys2Proof/Machine/Step.lean ====
section
/-!
DEFINITION. The step function of the machine (20_memory.md R59) and the placing of a table word where the next step runs it.
-/

namespace Sys2Proof.Machine

/-- One step: one agent's turn. -/
def step (s : State) : Host.Outcome State Fault Refusal := nextTurn s

/-- The state in which the very next step issues the descriptor of a table word (log 7, log 22). -/
def State.withFetchWord (s : State) (nbits w : Nat) : State := placeDesc (tableDesc nbits w) s

end Sys2Proof.Machine
end

