-- ==== Sys2Proof/Machine/Pseudo.lean ====
section
/-!
DEFINITION. Sequences of operations the spec names: the two pseudo-operations (30_encoding.md R89), the boot order
(70_reset_and_hazards.md R191), and the run of a sequence with no handler in between (30_encoding.md R88).
-/

namespace Sys2Proof.Machine

/-- A sequence of operations, one after another. An operation that holds leaves the later ones unissued (R33). -/
def runOps : List Instr → State → Host.Outcome State Fault Refusal
  | [], s => .next s
  | i :: rest, s =>
    match exec i s with
    | .next t => runOps rest t
    | .fault f => .fault f
    | .refused r => .refused r

/-- `CLEARSAFE OUT` (R89). -/
def clearSafeOut : List Instr := [.irqdisRd, .clear .outbound, .irqenRd]

/-- `CLEARSAFE IN`, legal only while `IE[MP] = 0` (R89). -/
def clearSafeIn : List Instr := [.irqdisWr, .clear .inbound, .irqenWr]

/-- The boot order of R191: SR first, then the three sources. -/
def bootOps (v0 : Byte) : List Instr := [.stwr v0, .irqenWr, .irqenRd, .irqenMp]

/-- The boot order of an implementation that cannot rely on the reset indices (R191, step 1). -/
def bootOpsClearing (v0 : Byte) : List Instr := .clear .inbound :: .clear .outbound :: bootOps v0

/-- What the main loop issues "at the start of every command": `STWR STATUS_INTERMEDIATE` (60_exceptions.md R165 b, 10_state.md
R29). -/
def commandStart (s : State) : Instr := .stwr s.par.intermediate

end Sys2Proof.Machine
end

