-- ==== Sys2Proof/Safety.lean ====
section
/-!
DEFINITION. The terms in which claims speak: the invariant of every reachable state (10_state.md R37, R38, R31), the contents of a
channel as a queue (R24), the rules of use the main loop must keep (70_reset_and_hazards.md R192, R193; 60_exceptions.md R165), whose
turn a step is and which source it concerns (60_exceptions.md R155), and the holds that nothing can lift (70_reset_and_hazards.md
R194, R197).
-/

namespace Sys2Proof.Machine

/-- Both index cells of a channel are in `0 .. N_c` (R22, R37). -/
abbrev State.indicesOk (s : State) (c : Channel) : Prop := s.head c < s.len c ∧ s.tail c < s.len c

/-- A channel's buffer is in canonical form and lists only slots that exist (R21). -/
abbrev State.bufferOk (s : State) (c : Channel) : Prop :=
  Memory.wf (s.chan c).buf ∧ ∀ cell ∈ (s.chan c).buf, cell.1 < s.len c

/-- Slot number `k` of the live data of a channel, oldest first (R24). -/
def State.liveSlot (s : State) (c : Channel) (k : Nat) : Option Byte := s.slot c (s.advIdx c (s.head c) k)

/-- Every live slot holds a byte (R38). -/
abbrev State.liveWritten (s : State) (c : Channel) : Prop := ∀ k, k < s.size c → (s.liveSlot c k).isSome = true

/-- The live data of a channel, oldest first (R24). -/
def State.queue (s : State) (c : Channel) : List (Option Byte) := (List.range (s.size c)).map (s.liveSlot c)

/-- What holds of the state while the main loop is about to do a micro-step. -/
def microOk (m : Micro) (s : State) : Prop :=
  match m with
  | .push1 c _ => c = .outbound
  | .push2 c _ => c = .outbound ∧ s.full c = false
  | .push3 c b => c = .outbound ∧ s.full c = false ∧ s.slot c (s.tail c) = some b
  | .pop1 c => s.popAdmitted c = true
  | .pop2 c => s.popAdmitted c = true ∧ s.empty c = false
  | .pop3 c v => s.popAdmitted c = true ∧ s.empty c = false ∧ s.slot c (s.head c) = some v
  | .block1 c _ => c = .outbound
  | .block2 c bytes t written published =>
    c = .outbound ∧ t < s.len c ∧ published ≤ written ∧ written ≤ blockLength bytes ∧ blockLength bytes ≤ s.cap c ∧
      s.tail c = s.advIdx c t published ∧ s.size c + (blockLength bytes - published) ≤ s.cap c ∧
      ∀ k, k < written → s.slot c (s.advIdx c t k) = some (blockByte bytes k)
  | .query1 _ _ | .queryTail _ _ _ | .queryHead _ _ _ => True
  | .clear1 c => s.sourcesMasked c = true
  | .clear2 c => s.sourcesMasked c = true ∧ s.head c = 0
  | .stwr1 _ | .irqen1 _ | .irqdis1 _ => True

/-- The main loop's control state agrees with the rest of the state. -/
def State.mainLoopOk (s : State) : Prop :=
  match s.ml with
  | .idle => True
  | .inOp m => microOk m s

/-- With `MASKED_EDGE = lost` no edge is ever pending (R31). -/
abbrev State.pendOk (s : State) : Prop := s.par.maskedEdge = .lost → s.pend = Lines.zero

/-- A channel in every reachable state: indices and buffer in range, and every live slot written, but for a channel whose CLEAR
has written `head` and not yet `tail`, which no one reads (R37, R38, R106). -/
def State.chanOk (s : State) (c : Channel) : Prop :=
  s.indicesOk c ∧ s.bufferOk c ∧ (s.ml = .inOp (.clear2 c) ∨ s.liveWritten c)

/-- The invariant of every reachable state. -/
def State.Inv (s : State) : Prop :=
  s.par.wf ∧ s.chanOk .inbound ∧ s.chanOk .outbound ∧ s.mainLoopOk ∧ s.pendOk

/-- The interrupt source whose line an event is an edge on; none for a main-loop operation (R155). -/
def eventSource (i : Instr) : Option Source :=
  match i with
  | .rdstb => some .rd
  | .wrstb _ => some .wr
  | .mpedge => some .mp
  | .push _ _ | .pop _ | .pushBlock _ _ | .isEmpty _ | .isFull _ | .size _ | .clear _ | .stwr _
  | .irqenRd | .irqenWr | .irqenMp | .irqdisRd | .irqdisWr | .irqdisMp => none

/-- The turn is the main loop's: every other turn is the host's, the media line's or the interrupt context's (R7). -/
def Turn.isMainLoop (turn : Turn) : Bool :=
  match turn with
  | .mainLoop | .micro => true
  | .host _ | .line _ | .deferred _ => false

/-- The interrupt source a turn concerns: that of the edge it brings, or of the latched edge it serves (R155, R157). -/
def Turn.source (turn : Turn) : Option Source :=
  match turn with
  | .mainLoop | .micro => none
  | .host d | .line d => (decode d).toOption.bind eventSource
  | .deferred src => some src

/-- The rules of use of R192 and R193 for issuing an operation: one producer and one consumer a channel, and CLEAR under mask. -/
def keepsRules (i : Instr) (s : State) : Bool :=
  match i with
  | .push c _ | .pushBlock c _ => pushAdmitted c
  | .pop c => s.popAdmitted c
  | .clear c => s.sourcesMasked c
  | .isEmpty _ | .isFull _ | .size _ | .stwr _ | .irqenRd | .irqenWr | .irqenMp
  | .irqdisRd | .irqdisWr | .irqdisMp => true
  | .rdstb | .wrstb _ | .mpedge => false

/-- A main-loop operation completes when issued now and run with no handler in between: it does not hold (R100 to R102). -/
def completesNow (i : Instr) (s : State) : Bool :=
  match i with
  | .push c _ => !s.full c
  | .pop c => !s.empty c
  | .pushBlock c bytes => blockLength bytes ≤ s.free c
  | .isEmpty _ | .isFull _ | .size _ | .clear _ | .stwr _ | .irqenRd | .irqenWr | .irqenMp
  | .irqdisRd | .irqdisWr | .irqdisMp => true
  | .rdstb | .wrstb _ | .mpedge => false

/-- No host read takes a byte out of Outbound, now or later, while the main loop is held: RD is masked, or SR bypasses the channel
and so does the one other value SR can take meanwhile (R194, R197). -/
abbrev State.outboundFrozen (s : State) : Prop :=
  s.ie.rd = false ∨ (statusBypass s.sr = true ∧ statusBypass s.par.overrun = true)

/-- The main loop is about to do `m`, it holds, and no step of any agent can lift the hold (R194, R197). -/
def heldForGood (m : Micro) (s : State) : Prop :=
  match m with
  | .push1 c _ => c = .outbound ∧ s.full c = true ∧ s.outboundFrozen
  | .block1 c bytes =>
    c = .outbound ∧ (s.cap c < blockLength bytes ∨ (s.free c < blockLength bytes ∧ s.outboundFrozen))
  | .pop1 c => s.empty c = true ∧ s.sourcesMasked c = true
  | .push2 _ _ | .push3 _ _ | .pop2 _ | .pop3 _ _ | .block2 _ _ _ _ _ | .query1 _ _ | .queryTail _ _ _
  | .queryHead _ _ _ | .clear1 _ | .clear2 _ | .stwr1 _ | .irqen1 _ | .irqdis1 _ => False

end Sys2Proof.Machine
end

