-- ==== Sys2Proof/Certificates/Slice0/Obligations.lean ====
section
/-!
DEFINITION. The statements about the machine that are to be proved, each from the numbered rules of spec/. A docstring names the
rule a statement formalises; where a statement rests on a choice of the model it names the log entry.
-/

open Sys2Proof Sys2Proof.Machine

/-! ### Encoding -/

/-- Decode of encode is the operation, for every well-formed operation and every operand (30_encoding.md R82 to R85). -/
def Obligations.DecodeOfEncode : Prop :=
  ∀ i : Instr, i.wellFormed → decode (encode i) = .ok i

/-- Every descriptor that decodes is the encoding of the well-formed operation it decodes to: no must-be-zero bit, no second
spelling (R83, R86). -/
def Obligations.EncodeOfDecode : Prop :=
  ∀ (d : Desc) (i : Instr), decode d = .ok i → i.wellFormed ∧ encode i = d

/-- A descriptor is legal exactly when its word selects a row of the opcode table and the operand bytes are as many as `opc` and
`imm` tell (R84 to R86; the operand count is log 17). -/
def Obligations.DecoderAgreesWithOpcodeTable : Prop :=
  ∀ d : Desc, (∃ i, decode d = .ok i) ↔
    ((∃ r ∈ opcodeTable, r.selects d.word) ∧
      d.operands.length = if d.word.toNat / 4096 = 3 then d.word.toNat % 256 else 0)

/-- "No two rows overlap" (R84). -/
def Obligations.OpcodeRowsDoNotOverlap : Prop :=
  ∀ (w : Word) (r r' : TableRow), r ∈ opcodeTable → r' ∈ opcodeTable → r.selects w → r'.selects w → r = r'

/-- Words of 95_test_vectors.md section 2.1, one of each family, and illegal ones. -/
def Obligations.SampleWordsDecode : Prop :=
  decode ⟨0x1141#16, []⟩ = .ok (.push .outbound 0x41#8) ∧
  decode ⟨0x2000#16, []⟩ = .ok (.pop .inbound) ∧
  decode ⟨0x3102#16, [0xAA#8, 0xBB#8]⟩ = .ok (.pushBlock .outbound [0xAA#8, 0xBB#8]) ∧
  decode ⟨0x6100#16, []⟩ = .ok (.size .outbound) ∧
  decode ⟨0x8080#16, []⟩ = .ok (.stwr 0x80#8) ∧
  decode ⟨0x9200#16, []⟩ = .ok .irqenMp ∧
  decode ⟨0xA000#16, []⟩ = .ok .irqdisRd ∧
  decode ⟨0xD041#16, []⟩ = .ok (.wrstb 0x41#8) ∧
  decode ⟨0xE000#16, []⟩ = .ok .mpedge ∧
  decode ⟨0x9300#16, []⟩ = .error .reservedSource ∧
  decode ⟨0x2001#16, []⟩ = .error .immNotZero ∧
  decode ⟨0x1200#16, []⟩ = .error .selNotZero ∧
  decode ⟨0xBABE#16, []⟩ = .error .reservedOpcode

/-! ### A step runs the decoded operation -/

/-- A step runs the operation that the next descriptor decodes to, on the state with that turn taken and, for the main loop, that
descriptor issued (00_scope.md R7, 30_encoding.md R87; the schedule is log 7). -/
def Obligations.StepRunsDecodedOperation : Prop :=
  ∀ (s : State) (d : Desc) (i : Instr) (ts : List Turn), decode d = .ok i →
    (∀ ps, i.agent = .mainLoop → s.turns = .mainLoop :: ts → s.ml = .idle → s.prog = d :: ps →
      step s = exec i { s with turns := ts, prog := ps }) ∧
    (i.agent = .host → s.turns = .host d :: ts → step s = exec i { s with turns := ts }) ∧
    (i.agent = .line → s.turns = .line d :: ts → step s = exec i { s with turns := ts })

/-- A descriptor that decodes to nothing is refused `IllegalDescriptor`, whoever issues it (R86, R154). Those rules define
`IllegalDescriptor` for words: that a legal word issued with missing or spare operand bytes (`DecodeError.operandCount`) is refused by
the same name is the model's choice, log 17. -/
def Obligations.IllegalDescriptorRefused : Prop :=
  ∀ (s : State) (d : Desc) (e : DecodeError) (ts : List Turn), decode d = .error e →
    (∀ ps, s.turns = .mainLoop :: ts ∨ s.turns = .micro :: ts → s.ml = .idle → s.prog = d :: ps →
      step s = .refused .illegalDescriptor) ∧
    (s.turns = .host d :: ts ∨ s.turns = .line d :: ts → step s = .refused .illegalDescriptor)

/-- A descriptor issued by another agent than the one R87 names is refused `WrongAgent`. -/
def Obligations.WrongAgentRefused : Prop :=
  ∀ (s : State) (d : Desc) (i : Instr) (ts : List Turn), decode d = .ok i →
    (∀ ps, i.agent ≠ .mainLoop → s.turns = .mainLoop :: ts ∨ s.turns = .micro :: ts → s.ml = .idle → s.prog = d :: ps →
      step s = .refused .wrongAgent) ∧
    (i.agent ≠ .host → s.turns = .host d :: ts → step s = .refused .wrongAgent) ∧
    (i.agent ≠ .line → s.turns = .line d :: ts → step s = .refused .wrongAgent)

/-! ### The channel operations -/

/-- PUSH OUT on a channel that is not full stores at `tail` and advances it (R100). -/
def Obligations.PushCompletes : Prop :=
  ∀ (s : State) (b : Byte), s.ml = .idle → s.outb.tail < s.par.nOut + 1 →
    (s.outb.tail + 1) % (s.par.nOut + 1) ≠ s.outb.head →
    exec (.push .outbound b) s = .next { s with
      outb := { buf := Memory.write s.outb.buf s.outb.tail b, head := s.outb.head
                tail := (s.outb.tail + 1) % (s.par.nOut + 1) }
      trace := .op (.push .outbound b) .nothing :: s.trace }

/-- PUSH OUT on a full channel holds at its step 1: nothing else changes (R100). -/
def Obligations.PushHoldsWhileFull : Prop :=
  ∀ (s : State) (b : Byte), s.ml = .idle → (s.outb.tail + 1) % (s.par.nOut + 1) = s.outb.head →
    exec (.push .outbound b) s = .next { s with ml := .inOp (.push1 .outbound b) }

/-- A main-loop push of a byte or a block into Inbound is refused `RoleViolation`, and so is POP OUT while `IE[RD] = 1` (R107). -/
def Obligations.WrongRoleRefused : Prop :=
  ∀ (s : State) (b : Byte) (bytes : List Byte), s.ml = .idle →
    exec (.push .inbound b) s = .refused .roleViolation ∧
    exec (.pushBlock .inbound bytes) s = .refused .roleViolation ∧
    (s.ie.rd = true → exec (.pop .outbound) s = .refused .roleViolation)

/-- POP on a channel that is not empty returns the byte at `head` and advances it; for Outbound while RD is masked (R101, R107). -/
def Obligations.PopCompletes : Prop :=
  ∀ (s : State) (c : Channel) (v : Byte), s.ml = .idle → (c = .outbound → s.ie.rd = false) →
    s.head c ≠ s.tail c → s.head c < s.cap c + 1 → s.slot c (s.head c) = some v →
    exec (.pop c) s =
      .next ((s.setHead c ((s.head c + 1) % (s.cap c + 1))).observe (.op (.pop c) (.byte v)))

/-- POP on an empty channel holds at its step 1: nothing else changes (R101, R107). -/
def Obligations.PopHoldsWhileEmpty : Prop :=
  ∀ (s : State) (c : Channel), s.ml = .idle → (c = .outbound → s.ie.rd = false) → s.head c = s.tail c →
    exec (.pop c) s = .next { s with ml := .inOp (.pop1 c) }

/-- PUSHBLOCK OUT with enough free space puts byte `k` into slot `(t + k) mod M`, advances `tail` by the block's length, and changes
no other slot and no other cell (R102, 20_memory.md R54). -/
def Obligations.PushBlockCompletes : Prop :=
  ∀ (s : State) (bytes : List Byte), s.ml = .idle → s.outb.tail < s.par.nOut + 1 → bytes.length ≤ s.free .outbound →
    ∃ buf, exec (.pushBlock .outbound bytes) s = .next { s with
        outb := { buf := buf, head := s.outb.head, tail := (s.outb.tail + bytes.length) % (s.par.nOut + 1) }
        trace := .op (.pushBlock .outbound bytes) .nothing :: s.trace } ∧
      (∀ k, k < bytes.length → Memory.read buf ((s.outb.tail + k) % (s.par.nOut + 1)) = bytes[k]?) ∧
      (∀ a, (∀ k, k < bytes.length → a ≠ (s.outb.tail + k) % (s.par.nOut + 1)) →
        Memory.read buf a = Memory.read s.outb.buf a)

/-- PUSHBLOCK OUT with too little free space holds at its step 1, however many slots are free (R102). -/
def Obligations.PushBlockHoldsWhileShort : Prop :=
  ∀ (s : State) (bytes : List Byte), s.ml = .idle → s.free .outbound < bytes.length →
    exec (.pushBlock .outbound bytes) s = .next { s with ml := .inOp (.block1 .outbound bytes) }

/-- The queries answer from the index cells, write nothing, and never hold or stop, on either channel (R103 to R105, R107). -/
def Obligations.QueriesComplete : Prop :=
  ∀ (s : State) (c : Channel), s.ml = .idle →
    exec (.isEmpty c) s = .next { s with trace := .op (.isEmpty c) (.bit (s.head c = s.tail c)) :: s.trace } ∧
    exec (.isFull c) s =
      .next { s with trace := .op (.isFull c) (.bit ((s.tail c + 1) % (s.cap c + 1) = s.head c)) :: s.trace } ∧
    ∃ n, exec (.size c) s = .next { s with trace := .op (.size c) (.num n) :: s.trace } ∧
      n ≤ s.cap c ∧ (n : Int) = ((s.tail c : Int) - (s.head c : Int)) % ((s.cap c : Int) + 1)

/-- CLEAR under mask sets both indices to zero and changes no slot and no other cell (R106). -/
def Obligations.ClearCompletes : Prop :=
  ∀ s : State, s.ml = .idle →
    (s.ie.rd = false → exec (.clear .outbound) s = .next { s with
      outb := { buf := s.outb.buf, head := 0, tail := 0 }
      trace := .op (.clear .outbound) .nothing :: s.trace }) ∧
    (s.ie.wr = false → s.ie.mp = false → exec (.clear .inbound) s = .next { s with
      inb := { buf := s.inb.buf, head := 0, tail := 0 }
      trace := .op (.clear .inbound) .nothing :: s.trace })

/-- CLEAR while a source that touches the channel is enabled faults `ClearUnmasked` (R106). -/
def Obligations.ClearUnmaskedFaults : Prop :=
  ∀ s : State, s.ml = .idle →
    (s.ie.rd = true → exec (.clear .outbound) s = .fault (.clearUnmasked .outbound)) ∧
    (s.ie.wr = true ∨ s.ie.mp = true → exec (.clear .inbound) s = .fault (.clearUnmasked .inbound))

/-! ### The status and mask operations -/

/-- STWR writes SR, any value, and no other cell (R120). -/
def Obligations.StwrWritesStatus : Prop :=
  ∀ (s : State) (v : Byte), s.ml = .idle →
    exec (.stwr v) s = .next { s with sr := v, trace := .op (.stwr v) .nothing :: s.trace }

/-- IRQEN sets the enable bit of its source and writes no other cell, `PEND` among them (R121). -/
def Obligations.IrqenEnables : Prop :=
  ∀ s : State, s.ml = .idle →
    exec .irqenRd s = .next { s with ie := { s.ie with rd := true }, trace := .op .irqenRd .nothing :: s.trace } ∧
    exec .irqenWr s = .next { s with ie := { s.ie with wr := true }, trace := .op .irqenWr .nothing :: s.trace } ∧
    exec .irqenMp s = .next { s with ie := { s.ie with mp := true }, trace := .op .irqenMp .nothing :: s.trace }

/-- IRQDIS clears the enable bit of its source and writes no other cell (R122). -/
def Obligations.IrqdisMasks : Prop :=
  ∀ s : State, s.ml = .idle →
    exec .irqdisRd s = .next { s with ie := { s.ie with rd := false }, trace := .op .irqdisRd .nothing :: s.trace } ∧
    exec .irqdisWr s = .next { s with ie := { s.ie with wr := false }, trace := .op .irqdisWr .nothing :: s.trace } ∧
    exec .irqdisMp s = .next { s with ie := { s.ie with mp := false }, trace := .op .irqdisMp .nothing :: s.trace }

/-! ### The handlers -/

/-- RDSTB with RD enabled is the three-way multiplexer: SR, else the oldest Outbound byte, else the underrun code (R130). -/
def Obligations.RdstbSelects : Prop :=
  ∀ s : State, s.ie.rd = true →
    (s.sr.getLsbD 7 = true → exec .rdstb s = .next { s with trace := .read s.sr :: s.trace }) ∧
    (∀ v, s.sr.getLsbD 7 = false → s.outb.head ≠ s.outb.tail → s.outb.head < s.par.nOut + 1 →
      s.slot .outbound s.outb.head = some v →
      exec .rdstb s = .next { s with
        outb := { s.outb with head := (s.outb.head + 1) % (s.par.nOut + 1) }
        trace := .read v :: s.trace }) ∧
    (s.sr.getLsbD 7 = false → s.outb.head = s.outb.tail →
      exec .rdstb s = .next { s with trace := .read s.par.underrun :: s.trace })

/-- "for every state with `SR[7] = 1`, RDSTB drives `SR` and leaves `head[OUT]` unchanged, whatever `size_OUT` is"; and with
`SR[7] = 0` what is driven is a queued byte or the underrun code, decided without regard to SR's value (R133). -/
def Obligations.StatusPreemptsData : Prop :=
  ∀ s : State, s.ie.rd = true →
    (s.sr.getLsbD 7 = true →
      ∃ t, exec .rdstb s = .next t ∧ t.trace = .read s.sr :: s.trace ∧ t.outb.head = s.outb.head) ∧
    (∀ t, s.sr.getLsbD 7 = false → exec .rdstb s = .next t →
      ∃ v, t.trace = .read v :: s.trace ∧
        (v = s.par.underrun ∨ s.slot .outbound s.outb.head = some v) ∧
        ∀ w : Byte, w.getLsbD 7 = false →
          exec .rdstb { s with sr := w } = .next { t with sr := w })

/-- WRSTB with WR enabled pushes into Inbound, or, when Inbound is full, writes the overrun code to SR and drops the byte (R131). -/
def Obligations.WrstbPushesOrReports : Prop :=
  ∀ (s : State) (b : Byte), s.ie.wr = true →
    ((s.inb.tail + 1) % (s.par.nIn + 1) ≠ s.inb.head → s.inb.tail < s.par.nIn + 1 →
      exec (.wrstb b) s = .next { s with
        inb := { buf := Memory.write s.inb.buf s.inb.tail b, head := s.inb.head
                 tail := (s.inb.tail + 1) % (s.par.nIn + 1) }
        trace := .write b :: s.trace }) ∧
    ((s.inb.tail + 1) % (s.par.nIn + 1) = s.inb.head →
      exec (.wrstb b) s = .next { s with sr := s.par.overrun, trace := .write b :: s.trace })

/-- MPEDGE with MP enabled pushes the pseudo-command and masks its own source (R132). -/
def Obligations.MpedgePushesAndMasksItself : Prop :=
  ∀ s : State, s.ie.mp = true → (s.inb.tail + 1) % (s.par.nIn + 1) ≠ s.inb.head → s.inb.tail < s.par.nIn + 1 →
    exec .mpedge s = .next { s with
      inb := { buf := Memory.write s.inb.buf s.inb.tail s.par.hotplug, head := s.inb.head
               tail := (s.inb.tail + 1) % (s.par.nIn + 1) }
      ie := { s.ie with mp := false }
      trace := .media :: s.trace }

/-- MPEDGE delivered on a full Inbound faults `HotplugPushOnFull` (R132, R153). -/
def Obligations.MpedgeOnFullFaults : Prop :=
  ∀ s : State, s.ie.mp = true → (s.inb.tail + 1) % (s.par.nIn + 1) = s.inb.head →
    exec .mpedge s = .fault .hotplugPushOnFull

/-- An edge on a masked source changes no cell but its pending bit: lost under `lost`, latched under `latched`, one of the two under
`either`; the host's masked read samples a draw (R157; the draw counter is log 2, the latching draw log 15). -/
def Obligations.MaskedEdgeLostOrLatched : Prop :=
  ∀ (s : State) (b : Byte), ∃ latch : Bool,
    (s.par.maskedEdge = .lost → latch = false) ∧ (s.par.maskedEdge = .latched → latch = true) ∧
    (s.ie.rd = false → exec .rdstb s = .next { s with
      pend := { s.pend with rd := s.pend.rd || latch }, draws := s.draws + 1
      trace := .read (Config.freeByte s.draws) :: s.trace }) ∧
    (s.ie.wr = false → exec (.wrstb b) s = .next { s with
      pend := { s.pend with wr := s.pend.wr || latch }, draws := s.draws + 1, trace := .write b :: s.trace }) ∧
    (s.ie.mp = false → exec .mpedge s = .next { s with
      pend := { s.pend with mp := s.pend.mp || latch }, draws := s.draws + 1, trace := .media :: s.trace })

/-- A deferred run clears the pending bit and runs the handler: RD pops a byte no host transaction gets, WR stores a draw or reports
an overrun, MP pushes the pseudo-command and masks itself or faults (R157). A deferred turn of the schedule is that run, and changes
nothing else where the source is masked or has nothing pending; on an empty schedule a run that is enabled comes before the main loop.
The model's choices here: a deferred run enters nothing in the trace, and a turn for one that is not enabled does nothing (log 16,
DEDUCED); WR's run advances the draw counter (log 2); the schedule is log 7, what an empty one does is log 8. -/
def Obligations.DeferredRunServesLatchedEdge : Prop :=
  ∀ s : State,
    (s.ie.rd = true → s.pend.rd = true → s.sr.getLsbD 7 = false → s.outb.head ≠ s.outb.tail →
      s.outb.head < s.par.nOut + 1 → (s.slot .outbound s.outb.head).isSome = true →
      deferredRun .rd s = .next { s with
        pend := { s.pend with rd := false }
        outb := { s.outb with head := (s.outb.head + 1) % (s.par.nOut + 1) } }) ∧
    (s.ie.rd = true → s.pend.rd = true → s.sr.getLsbD 7 = true ∨ s.outb.head = s.outb.tail →
      deferredRun .rd s = .next { s with pend := { s.pend with rd := false } }) ∧
    (s.ie.wr = true → s.pend.wr = true → (s.inb.tail + 1) % (s.par.nIn + 1) ≠ s.inb.head →
      s.inb.tail < s.par.nIn + 1 →
      deferredRun .wr s = .next { s with
        pend := { s.pend with wr := false }, draws := s.draws + 1
        inb := { buf := Memory.write s.inb.buf s.inb.tail (Config.freeByte s.draws), head := s.inb.head
                 tail := (s.inb.tail + 1) % (s.par.nIn + 1) } }) ∧
    (s.ie.wr = true → s.pend.wr = true → (s.inb.tail + 1) % (s.par.nIn + 1) = s.inb.head →
      deferredRun .wr s = .next { s with
        pend := { s.pend with wr := false }, draws := s.draws + 1, sr := s.par.overrun }) ∧
    (s.ie.mp = true → s.pend.mp = true → (s.inb.tail + 1) % (s.par.nIn + 1) ≠ s.inb.head →
      s.inb.tail < s.par.nIn + 1 →
      deferredRun .mp s = .next { s with
        pend := { s.pend with mp := false }, ie := { s.ie with mp := false }
        inb := { buf := Memory.write s.inb.buf s.inb.tail s.par.hotplug, head := s.inb.head
                 tail := (s.inb.tail + 1) % (s.par.nIn + 1) } }) ∧
    (s.ie.mp = true → s.pend.mp = true → (s.inb.tail + 1) % (s.par.nIn + 1) = s.inb.head →
      deferredRun .mp s = .fault .hotplugPushOnFull) ∧
    (∀ (src : Source) (ts : List Turn), s.turns = .deferred src :: ts →
      step s = deferredRun src { s with turns := ts } ∧
      (s.ie.get src = false ∨ s.pend.get src = false → step s = .next { s with turns := ts })) ∧
    (∀ q : Source, s.turns = [] → s.ie.get q = true → s.pend.get q = true →
      ∃ src, s.ie.get src = true ∧ s.pend.get src = true ∧ step s = deferredRun src s)

/-! ### What operations leave unchanged -/

/-- The queries change no cell of the block: only the trace, when they answer (R103 to R105). -/
def Obligations.QueryFrame : Prop :=
  ∀ (s t : State) (c : Channel) (i : Instr), i = .isEmpty c ∨ i = .isFull c ∨ i = .size c →
    exec i s = .next t → t = { s with trace := t.trace }

/-- PUSH and PUSHBLOCK change no cell but Outbound's buffer and tail, and no slot but those they store to, whose addresses are
`(tail + k) mod M` (PUSH: `tail`); a hold or a busy main loop changes none (R100, R102). -/
def Obligations.StoringOperationFrame : Prop :=
  ∀ (s t : State) (c : Channel) (b : Byte) (bytes : List Byte),
    (exec (.push c b) s = .next t →
      t = { s with outb := { s.outb with buf := t.outb.buf, tail := t.outb.tail }, ml := t.ml, trace := t.trace } ∧
      ∀ a, a ≠ s.tail .outbound → t.slot .outbound a = s.slot .outbound a) ∧
    (exec (.pushBlock c bytes) s = .next t →
      t = { s with outb := { s.outb with buf := t.outb.buf, tail := t.outb.tail }, ml := t.ml, trace := t.trace } ∧
      ∀ a, (∀ k, k < bytes.length → a ≠ s.advIdx .outbound (s.tail .outbound) k) →
        t.slot .outbound a = s.slot .outbound a)

/-- POP changes no cell but the head of its channel, CLEAR none but the two indices of its channel: no slot of either channel, not
SR, IE or PEND (R101, R106). -/
def Obligations.PopAndClearFrame : Prop :=
  ∀ (s t : State) (c : Channel),
    (exec (.pop c) s = .next t → t = { s.setHead c (t.head c) with ml := t.ml, trace := t.trace }) ∧
    (exec (.clear c) s = .next t →
      t = { (s.setHead c (t.head c)).setTail c (t.tail c) with trace := t.trace })

/-- STWR changes no cell but SR; IRQEN and IRQDIS none but the enable bit of their source (R120 to R122). -/
def Obligations.StatusAndMaskFrame : Prop :=
  ∀ (s t : State) (v : Byte),
    (exec (.stwr v) s = .next t → t = { s with sr := t.sr, trace := t.trace }) ∧
    (exec .irqenRd s = .next t ∨ exec .irqdisRd s = .next t →
      t = { s with ie := { s.ie with rd := t.ie.rd }, trace := t.trace }) ∧
    (exec .irqenWr s = .next t ∨ exec .irqdisWr s = .next t →
      t = { s with ie := { s.ie with wr := t.ie.wr }, trace := t.trace }) ∧
    (exec .irqenMp s = .next t ∨ exec .irqdisMp s = .next t →
      t = { s with ie := { s.ie with mp := t.ie.mp }, trace := t.trace })

/-- The handlers, enabled or masked: RDSTB changes at most `head[OUT]` and `PEND[RD]`; WRSTB at most SR, `tail[IN]`, `PEND[WR]` and
the slot at `tail[IN]`; MPEDGE at most `tail[IN]`, `IE[MP]`, `PEND[MP]` and the slot at `tail[IN]`. None touches ML (R130 to R132,
R159). -/
def Obligations.HandlerFrame : Prop :=
  ∀ (s t : State) (b : Byte),
    (exec .rdstb s = .next t → t = { s with
      outb := { s.outb with head := t.outb.head }, pend := { s.pend with rd := t.pend.rd }
      draws := t.draws, trace := t.trace }) ∧
    (exec (.wrstb b) s = .next t → t = { s with
      inb := { s.inb with buf := t.inb.buf, tail := t.inb.tail }, sr := t.sr, pend := { s.pend with wr := t.pend.wr }
      draws := t.draws, trace := t.trace } ∧
      ∀ a, a ≠ s.tail .inbound → t.slot .inbound a = s.slot .inbound a) ∧
    (exec .mpedge s = .next t → t = { s with
      inb := { s.inb with buf := t.inb.buf, tail := t.inb.tail }, ie := { s.ie with mp := t.ie.mp }
      pend := { s.pend with mp := t.pend.mp }, draws := t.draws, trace := t.trace } ∧
      ∀ a, a ≠ s.tail .inbound → t.slot .inbound a = s.slot .inbound a)

/-- Inside one operation the main loop issues no other: the issue changes nothing (10_state.md R33; log 10). -/
def Obligations.BusyMainLoopIssuesNothing : Prop :=
  ∀ (s : State) (m : Micro) (i : Instr), s.ml = .inOp m → i.agent = .mainLoop → exec i s = .next s

/-! ### Invariants -/

/-- The invariant holds after reset (R36 to R38), for every value of the parameters (log 1). -/
def Obligations.InvariantAtReset : Prop := State.reset.Inv

/-- Every step of any agent keeps the invariant: indices in range, every live slot written, memory canonical and inside its array,
the main loop's control state true of the channels, `PEND` zero under `lost` (R31, R37, R38). -/
def Obligations.StepKeepsInvariant : Prop :=
  ∀ s t : State, s.Inv → step s = .next t → t.Inv

/-- Every index of a state that meets the invariant is in `0 .. N_c` and fits an index cell of `IDX_W` bits, and at most `N_c` bytes
are live (R22, R25, R37). -/
def Obligations.IndicesFitTheirCells : Prop :=
  ∀ (s : State) (c : Channel), s.Inv →
    s.head c ≤ s.cap c ∧ s.tail c ≤ s.cap c ∧ s.size c ≤ s.cap c ∧
    s.head c < 2 ^ s.par.idxW ∧ s.tail c < 2 ^ s.par.idxW

/-- From a state that meets the invariant no step reads a slot that holds no value, and none touches a slot outside the array: the
only faults are those of a media edge on a full Inbound and of an unmasked CLEAR (R38, R153). -/
def Obligations.OnlyTwoFaultsCanArise : Prop :=
  ∀ (s : State) (f : Fault), s.Inv → step s = .fault f → f = .hotplugPushOnFull ∨ ∃ c, f = .clearUnmasked c

/-- Every main-loop operation that keeps the rules of use and whose blocking condition holds completes: ML is idle again and the
trace shows the operation with its result (R100 to R107, R120 to R122). -/
def Obligations.AdmittedOperationCompletes : Prop :=
  ∀ (s : State) (i : Instr), s.Inv → s.ml = .idle → keepsRules i s = true → completesNow i s = true →
    ∃ t res, exec i s = .next t ∧ t.ml = .idle ∧ t.trace = .op i res :: s.trace

/-- Handlers never wait: from a state that meets the invariant RDSTB and WRSTB always answer a next state, and MPEDGE does unless it
is delivered on a full Inbound (R134). -/
def Obligations.HandlersNeverWait : Prop :=
  ∀ (s : State) (b : Byte), s.Inv →
    (∃ t, exec .rdstb s = .next t ∧ t.ml = s.ml) ∧
    (∃ t, exec (.wrstb b) s = .next t ∧ t.ml = s.ml) ∧
    ((s.ie.mp = true → s.full .inbound = false) → ∃ t, exec .mpedge s = .next t ∧ t.ml = s.ml)

/-- No step changes the parameters (R6, R35). -/
def Obligations.StepKeepsParameters : Prop :=
  ∀ s t : State, step s = .next t → t.par = s.par

/-- SR has two writers: a step that changes it is the main loop's and completed an STWR of the value SR now has, or it is a run of the
write-strobe handler that found WR enabled and Inbound full and has put the overrun code there (R28, R131, R157). -/
def Obligations.StatusRegisterWriters : Prop :=
  ∀ s t : State, step s = .next t →
    t.sr = s.sr ∨
    (s.dueTurn.isMainLoop = true ∧ t.trace = .op (.stwr t.sr) .nothing :: s.trace) ∨
    (s.dueTurn.source = some .wr ∧ s.ie.wr = true ∧ s.full .inbound = true ∧ t.sr = s.par.overrun)

/-- An enable bit is set by IRQEN of its source only, and cleared by IRQDIS of its source or, for MP, by a run of its own handler,
which pushes the pseudo-command (R121, R122, R156). -/
def Obligations.EnableBitWriters : Prop :=
  ∀ (s t : State) (src : Source), step s = .next t →
    (s.ie.get src = false → t.ie.get src = true → t.trace = .op (irqenOf src) .nothing :: s.trace) ∧
    (s.ie.get src = true → t.ie.get src = false →
      t.trace = .op (irqdisOf src) .nothing :: s.trace ∨
      (src = .mp ∧ t.slot .inbound (s.tail .inbound) = some s.par.hotplug ∧
        t.tail .inbound = s.nextIdx .inbound (s.tail .inbound)))

/-- A turn of the host, of the media line or of the interrupt context, scheduled or taken by the block itself on an empty schedule
(log 8), leaves the main loop where it is and sets no enable bit (R156, R159, R160). -/
def Obligations.HandlersLeaveMainLoopAlone : Prop :=
  ∀ s t : State, s.dueTurn.isMainLoop = false → step s = .next t →
    t.ml = s.ml ∧ t.prog = s.prog ∧ t.turns = s.turns.tail ∧ ∀ q, t.ie.get q = true → s.ie.get q = true

/-- Between masking and enabling no handler run of the source happens, source by source, whatever the other two are: a turn that
concerns a masked source changes no cell but that source's pending bit; and, outside the main loop, only RD while enabled touches
Outbound, only WR while enabled SR, only WR or MP while enabled Inbound, and only MP while enabled an enable bit (R155 to R157,
20_memory.md R64). The turns are those of the schedule and the block's own on an empty one (log 8); the draw counter is log 2. -/
def Obligations.MaskedSourceTouchesNothing : Prop :=
  ∀ s t : State, step s = .next t →
    (∀ src, s.dueTurn.source = some src → s.ie.get src = false →
      t = { s with pend := s.pend.set src (t.pend.get src), draws := t.draws, turns := s.turns.tail, trace := t.trace }) ∧
    (s.dueTurn.isMainLoop = false →
      (t.outb = s.outb ∨ (s.dueTurn.source = some .rd ∧ s.ie.rd = true)) ∧
      (t.sr = s.sr ∨ (s.dueTurn.source = some .wr ∧ s.ie.wr = true)) ∧
      (t.inb = s.inb ∨ (s.dueTurn.source = some .wr ∧ s.ie.wr = true) ∨ (s.dueTurn.source = some .mp ∧ s.ie.mp = true)) ∧
      (t.ie = s.ie ∨ (s.dueTurn.source = some .mp ∧ s.ie.mp = true)))

/-- What a query of the main loop told stays true on its own side: no turn outside the main loop, scheduled or the block's own on an
empty schedule (log 8), shrinks the free space of Outbound or the size of Inbound (20_memory.md R69). -/
def Obligations.HandlersOnlyRaiseBounds : Prop :=
  ∀ s t : State, s.Inv → s.dueTurn.isMainLoop = false → step s = .next t →
    s.free .outbound ≤ t.free .outbound ∧ s.size .inbound ≤ t.size .inbound

/-! ### Index and queue laws -/

/-- "All index arithmetic is on integers modulo `M_c = N_c + 1`": the two index computations, their range and the wrap-around
(R51). -/
def Obligations.IndexArithmeticWraps : Prop :=
  ∀ (s : State) (c : Channel) (i n : Nat), i ≤ s.cap c → n ≤ s.cap c →
    s.nextIdx c i = (if i = s.cap c then 0 else i + 1) ∧ s.advIdx c i 1 = s.nextIdx c i ∧
    s.advIdx c i n = (if i + n ≤ s.cap c then i + n else i + n - (s.cap c + 1)) ∧
    s.nextIdx c i ≤ s.cap c ∧ s.advIdx c i n ≤ s.cap c

/-- The occupancy laws: size is the non-negative remainder, size and free sum to the capacity, size 0 is empty, size N is full, a push
adds one and a pop takes one (R23, R24, R52). -/
def Obligations.OccupancyLaws : Prop :=
  ∀ (s : State) (c : Channel), s.indicesOk c → 1 ≤ s.cap c →
    (s.size c : Int) = ((s.tail c : Int) - (s.head c : Int)) % ((s.cap c : Int) + 1) ∧
    s.size c + s.free c = s.cap c ∧
    (s.empty c = true ↔ s.size c = 0) ∧ (s.full c = true ↔ s.size c = s.cap c) ∧
    (s.full c = false → (s.setTail c (s.nextIdx c (s.tail c))).size c = s.size c + 1) ∧
    (s.empty c = false → (s.setHead c (s.nextIdx c (s.head c))).size c + 1 = s.size c) ∧
    (∀ n, n ≤ s.free c → (s.setTail c (s.advIdx c (s.tail c) n)).size c = s.size c + n) ∧
    ((s.setHead c 0).setTail c 0).size c = 0

/-- A channel is a first-in first-out queue under every step of every agent: its live data stays, loses its oldest byte, or gains
bytes at its young end, unless a CLEAR of that channel is under way or has just ended (R24, R53, R60, R61). -/
def Obligations.StepKeepsQueueOrder : Prop :=
  ∀ (s t : State) (c : Channel), s.Inv → step s = .next t →
    t.queue c = s.queue c ∨ (∃ x, s.queue c = x :: t.queue c) ∨
    (∃ added : List Byte, t.queue c = s.queue c ++ added.map some) ∨
    t.ml = .inOp (.clear2 c) ∨ t.trace = .op (.clear c) .nothing :: s.trace

/-- "`pushBlock` of length `L` is observationally equivalent to `L` sequential `push` calls, including across a wraparound boundary":
with `free >= L` at the start and no handler until the end both end with the same Outbound (R108). -/
def Obligations.BlockPushEqualsPushes : Prop :=
  ∀ (s : State) (bytes : List Byte), s.Inv → s.ml = .idle → bytes.length ≤ s.free .outbound →
    ∃ t u, exec (.pushBlock .outbound bytes) s = .next t ∧
      runOps (bytes.map (.push .outbound)) s = .next u ∧
      t = { u with trace := .op (.pushBlock .outbound bytes) .nothing :: s.trace } ∧
      t.tail .outbound = (s.tail .outbound + bytes.length) % (s.cap .outbound + 1) ∧
      ∀ k, k < bytes.length → t.slot .outbound ((s.tail .outbound + k) % (s.cap .outbound + 1)) = bytes[k]?

/-- "from an empty channel with no pop in between, exactly `N_c` PUSH operations complete and the `(N_c + 1)`-th holds at its step 1;
from a full channel with no push in between, exactly `N_c` POP operations complete, they return the `N_c` bytes in push order"; the
channel is then empty and the next POP holds (R109). -/
def Obligations.CapacityLaw : Prop :=
  (∀ (s : State) (bytes : List Byte) (b : Byte), s.Inv → s.ml = .idle → s.empty .outbound = true →
    bytes.length = s.cap .outbound →
    ∃ t, runOps (bytes.map (.push .outbound)) s = .next t ∧ t.ml = .idle ∧ t.full .outbound = true ∧
      t.queue .outbound = bytes.map some ∧
      t.trace = (bytes.reverse.map fun x => Obs.op (.push .outbound x) .nothing) ++ s.trace ∧
      exec (.push .outbound b) t = .next { t with ml := .inOp (.push1 .outbound b) }) ∧
  (∀ (s : State) (c : Channel), s.Inv → s.ml = .idle → s.popAdmitted c = true → s.full c = true →
    ∃ (t : State) (vs : List Byte), runOps (List.replicate (s.cap c) (.pop c)) s = .next t ∧ t.ml = .idle ∧ t.empty c = true ∧
      vs.map some = s.queue c ∧
      t.trace = (vs.reverse.map fun v => Obs.op (.pop c) (.byte v)) ++ s.trace ∧
      exec (.pop c) t = .next { t with ml := .inOp (.pop1 c) })

/-! ### Micro-steps, holds, interleavings -/

/-- An operation done micro-step by micro-step with no handler in between ends in the state of its uninterrupted run, whatever early
publications and read orders the draws choose (20_memory.md R59, R66; 30_encoding.md R88; only the draw counter may differ, log 2). -/
def Obligations.MicroStepsRefineOperation : Prop :=
  ∀ (s u : State) (d : Desc) (i : Instr) (ps : List Desc), s.ml = .idle → s.prog = d :: ps → decode d = .ok i →
    i.agent = .mainLoop → exec i { s with prog := ps } = .next u → u.ml = .idle →
    ∃ n, ∀ ts, ∃ k, Host.Core.run Sys2Proof.core n { s with turns := List.replicate n .micro ++ ts } =
      .next { u with draws := k, turns := ts }

/-- Holds that nothing can lift: a full Outbound no read drains, a block longer than the capacity, an empty channel whose producer is
masked or is the held main loop. No step of any agent lifts them (70_reset_and_hazards.md R194, R197). -/
def Obligations.HoldsThatNothingLifts : Prop :=
  ∀ (s t : State) (m : Micro), s.ml = .inOp m → heldForGood m s → step s = .next t →
    t.ml = .inOp m ∧ heldForGood m t ∧ t.prog = s.prog

/-- A held PUSH is lifted by a host read that takes its pop path, a held POP by a host write that pushes (R100, R101, V4, V10). -/
def Obligations.HostLiftsHolds : Prop :=
  ∀ (s : State) (b v : Byte) (ts : List Turn),
    (s.Inv → s.ml = .inOp (.push1 .outbound b) → s.full .outbound = true → s.ie.rd = true → s.sr.getLsbD 7 = false →
      s.slot .outbound (s.head .outbound) = some v → s.turns = .host (encode .rdstb) :: .mainLoop :: ts →
      ∃ t, Host.Core.run Sys2Proof.core 2 s = .next t ∧ t.ml = .idle ∧ t.full .outbound = true ∧
        t.trace = .op (.push .outbound b) .nothing :: .read v :: s.trace) ∧
    (s.Inv → s.ml = .inOp (.pop1 .inbound) → s.empty .inbound = true → s.ie.wr = true →
      s.turns = .host (encode (.wrstb b)) :: .mainLoop :: ts →
      ∃ t, Host.Core.run Sys2Proof.core 2 s = .next t ∧ t.ml = .idle ∧ t.empty .inbound = true ∧
        t.trace = .op (.pop .inbound) (.byte b) :: .write b :: s.trace)

/-- A handler between a slot access and its publication sees the old index: a read between PUSH's slot write and its tail write finds
Outbound empty and drives the underrun code; a write between POP's slot read and its head write finds Inbound still full (R60, R61,
V90, V91). -/
def Obligations.HandlerSeesOnlyPublications : Prop :=
  ∀ (s : State) (b v : Byte) (ts : List Turn), s.Inv →
    (s.ml = .inOp (.push2 .outbound b) → s.empty .outbound = true → s.ie.rd = true → s.sr.getLsbD 7 = false →
      s.turns = .micro :: .host (encode .rdstb) :: .micro :: ts →
      ∃ t, Host.Core.run Sys2Proof.core 3 s = .next t ∧ t.size .outbound = 1 ∧
        t.trace = .op (.push .outbound b) .nothing :: .read s.par.underrun :: s.trace) ∧
    (s.ml = .inOp (.pop2 .inbound) → s.full .inbound = true → s.ie.wr = true →
      s.slot .inbound (s.head .inbound) = some v →
      s.turns = .micro :: .host (encode (.wrstb b)) :: .micro :: ts →
      ∃ t, Host.Core.run Sys2Proof.core 3 s = .next t ∧ t.sr = s.par.overrun ∧ t.full .inbound = false ∧
        t.trace = .op (.pop .inbound) (.byte v) :: .write b :: s.trace)

/-- The two orders of a read and a write strobe on a full Inbound with a bypassing status differ in what the host samples: the old SR
or the overrun code (60_exceptions.md R158, V75; `H_OVR_TOP` is a named hypothesis of R6). -/
def Obligations.SimultaneousEdgesHaveBothOrders : Prop :=
  ∀ (s : State) (b : Byte) (ts : List Turn), s.par.overrunTop → s.ie.rd = true → s.ie.wr = true →
    s.full .inbound = true → s.sr.getLsbD 7 = true →
    (∃ t, Host.Core.run Sys2Proof.core 2 { s with turns := .host (encode .rdstb) :: .host (encode (.wrstb b)) :: ts } = .next t ∧
      t.trace = .write b :: .read s.sr :: s.trace ∧ t.sr = s.par.overrun) ∧
    (∃ t, Host.Core.run Sys2Proof.core 2 { s with turns := .host (encode (.wrstb b)) :: .host (encode .rdstb) :: ts } = .next t ∧
      t.trace = .read s.par.overrun :: .write b :: s.trace ∧ t.sr = s.par.overrun)

/-! ### Sequences the spec names -/

/-- `CLEARSAFE OUT` empties Outbound and ends with RD enabled whatever it was before; `CLEARSAFE IN` does the same with WR while MP is
masked, and faults while MP is enabled (R89). -/
def Obligations.ClearSafeSequences : Prop :=
  ∀ s : State, s.ml = .idle →
    (∃ t, runOps clearSafeOut s = .next t ∧
      t = { s with outb := { s.outb with head := 0, tail := 0 }, ie := { s.ie with rd := true }, trace := t.trace }) ∧
    (s.ie.mp = false → ∃ t, runOps clearSafeIn s = .next t ∧
      t = { s with inb := { s.inb with head := 0, tail := 0 }, ie := { s.ie with wr := true }, trace := t.trace }) ∧
    (s.ie.mp = true → runOps clearSafeIn s = .fault (.clearUnmasked .inbound))

/-- The boot order from reset, with or without the two CLEARs, ends with the chosen SR, every source enabled and both channels empty
(70_reset_and_hazards.md R191). -/
def Obligations.BootSequences : Prop :=
  ∀ v0 : Byte,
    (∃ t, runOps (bootOps v0) State.reset = .next t ∧
      t = { State.reset with sr := v0, ie := { rd := true, wr := true, mp := true }, trace := t.trace }) ∧
    (∃ t, runOps (bootOpsClearing v0) State.reset = .next t ∧
      t = { State.reset with sr := v0, ie := { rd := true, wr := true, mp := true }, trace := t.trace })

/-- From the start of a command the host reads the intermediate value, as often as it asks, and Outbound stays as it was (R29, R165 b;
`STATUS_INTERMEDIATE` has bit 7 set by R6). -/
def Obligations.CommandStartIsPolled : Prop :=
  ∀ (s : State) (n : Nat), s.par.wf → s.ml = .idle → s.ie.rd = true →
    ∃ t, exec (commandStart s) s = .next t ∧
      ∃ u, runOps (List.replicate n .rdstb) t = .next u ∧
        u.trace = List.replicate n (.read s.par.intermediate) ++ t.trace ∧ u.outb = s.outb ∧ u.sr = s.par.intermediate

/-- What reset leaves: both channels empty at index 0, every `IE` and `PEND` bit 0, ML idle, no slot with a value (R36, R190). -/
def Obligations.ResetState : Prop :=
  ∀ (c : Channel) (src : Source) (i : Nat),
    State.reset.head c = 0 ∧ State.reset.tail c = 0 ∧ State.reset.empty c = true ∧ State.reset.full c = false ∧
    State.reset.size c = 0 ∧ State.reset.slot c i = none ∧ State.reset.enabled src = false ∧
    State.reset.pending src = false ∧ State.reset.ml = .idle
end

