-- ==== Sys2Proof/Laws/Decode.lean ====
section
/-!
SUPPORT. The fields of a descriptor made from its fields (30_encoding.md R82).
-/

namespace Sys2Proof

/-- A bit of the word: `imm` in bits 7:0, `sel` in bits 11:8, `opc` in bits 15:12 (R82). -/
theorem mkDesc_bit (opc sel : BitVec 4) (imm : Byte) (operands : List Byte) (i : Nat) :
    (mkDesc opc sel imm operands).word.getLsbD i =
      if i < 8 then imm.getLsbD i else if i - 8 < 4 then sel.getLsbD (i - 8) else opc.getLsbD (i - 8 - 4) := by
  show ((opc ++ sel) ++ imm : BitVec (4 + 4 + 8)).getLsbD i = _
  rw [BitVec.getLsbD_append, BitVec.getLsbD_append]

@[simp] theorem mkDesc_opc (opc sel : BitVec 4) (imm : Byte) (operands : List Byte) : (mkDesc opc sel imm operands).opc = opc := by
  apply BitVec.eq_of_getLsbD_eq
  intro i hi
  rw [Desc.opc, BitVec.getLsbD_extractLsb', mkDesc_bit, if_neg (by omega), if_neg (by omega), show 12 + i - 8 - 4 = i by omega]
  simp [hi]

@[simp] theorem mkDesc_sel (opc sel : BitVec 4) (imm : Byte) (operands : List Byte) : (mkDesc opc sel imm operands).sel = sel := by
  apply BitVec.eq_of_getLsbD_eq
  intro i hi
  rw [Desc.sel, BitVec.getLsbD_extractLsb', mkDesc_bit, if_neg (by omega), if_pos (by omega), show 8 + i - 8 = i by omega]
  simp [hi]

@[simp] theorem mkDesc_imm (opc sel : BitVec 4) (imm : Byte) (operands : List Byte) : (mkDesc opc sel imm operands).imm = imm := by
  apply BitVec.eq_of_getLsbD_eq
  intro i hi
  rw [Desc.imm, BitVec.getLsbD_extractLsb', mkDesc_bit, if_pos (by omega), show 0 + i = i by omega]
  simp [hi]

@[simp] theorem mkDesc_operands (opc sel : BitVec 4) (imm : Byte) (operands : List Byte) :
    (mkDesc opc sel imm operands).operands = operands := rfl

@[simp] theorem decodeChannel_encodeChannel (c : Channel) : decodeChannel (encodeChannel c) = .ok c := by cases c <;> rfl

end Sys2Proof
end

