-- ==== Sys2Proof/Laws/State.lean ====
section
/-!
SUPPORT. One lemma per field per update of the state, each true by unfolding, so that no later proof unfolds a record update; and
what an update does to the cells of a channel.
-/

namespace Sys2Proof.Machine


@[simp] theorem State.setSr_par (s : State) (v : Byte) : (s.setSr v).par = s.par := rfl
@[simp] theorem State.setSr_inb (s : State) (v : Byte) : (s.setSr v).inb = s.inb := rfl
@[simp] theorem State.setSr_outb (s : State) (v : Byte) : (s.setSr v).outb = s.outb := rfl
@[simp] theorem State.setSr_sr (s : State) (v : Byte) : (s.setSr v).sr = v := rfl
@[simp] theorem State.setSr_ie (s : State) (v : Byte) : (s.setSr v).ie = s.ie := rfl
@[simp] theorem State.setSr_pend (s : State) (v : Byte) : (s.setSr v).pend = s.pend := rfl
@[simp] theorem State.setSr_ml (s : State) (v : Byte) : (s.setSr v).ml = s.ml := rfl
@[simp] theorem State.setSr_draws (s : State) (v : Byte) : (s.setSr v).draws = s.draws := rfl
@[simp] theorem State.setSr_prog (s : State) (v : Byte) : (s.setSr v).prog = s.prog := rfl
@[simp] theorem State.setSr_turns (s : State) (v : Byte) : (s.setSr v).turns = s.turns := rfl
@[simp] theorem State.setSr_trace (s : State) (v : Byte) : (s.setSr v).trace = s.trace := rfl
@[simp] theorem State.setSr_chan (s : State) (v : Byte) (c : Channel) : (s.setSr v).chan c = s.chan c := rfl
@[simp] theorem State.setSr_cap (s : State) (v : Byte) (c : Channel) : (s.setSr v).cap c = s.cap c := rfl
@[simp] theorem State.setSr_len (s : State) (v : Byte) (c : Channel) : (s.setSr v).len c = s.len c := rfl
@[simp] theorem State.setSr_head (s : State) (v : Byte) (c : Channel) : (s.setSr v).head c = s.head c := rfl
@[simp] theorem State.setSr_tail (s : State) (v : Byte) (c : Channel) : (s.setSr v).tail c = s.tail c := rfl
@[simp] theorem State.setSr_slot (s : State) (v : Byte) (c : Channel) (i : Nat) : (s.setSr v).slot c i = s.slot c i := rfl
@[simp] theorem State.setSr_nextIdx (s : State) (v : Byte) (c : Channel) (i : Nat) : (s.setSr v).nextIdx c i = s.nextIdx c i := rfl
@[simp] theorem State.setSr_advIdx (s : State) (v : Byte) (c : Channel) (i n : Nat) : (s.setSr v).advIdx c i n = s.advIdx c i n := rfl
@[simp] theorem State.setSr_size (s : State) (v : Byte) (c : Channel) : (s.setSr v).size c = s.size c := rfl
@[simp] theorem State.setSr_free (s : State) (v : Byte) (c : Channel) : (s.setSr v).free c = s.free c := rfl
@[simp] theorem State.setSr_empty (s : State) (v : Byte) (c : Channel) : (s.setSr v).empty c = s.empty c := rfl
@[simp] theorem State.setSr_full (s : State) (v : Byte) (c : Channel) : (s.setSr v).full c = s.full c := rfl

@[simp] theorem State.setIe_par (s : State) (src : Source) (b : Bool) : (s.setIe src b).par = s.par := rfl
@[simp] theorem State.setIe_inb (s : State) (src : Source) (b : Bool) : (s.setIe src b).inb = s.inb := rfl
@[simp] theorem State.setIe_outb (s : State) (src : Source) (b : Bool) : (s.setIe src b).outb = s.outb := rfl
@[simp] theorem State.setIe_sr (s : State) (src : Source) (b : Bool) : (s.setIe src b).sr = s.sr := rfl
@[simp] theorem State.setIe_ie (s : State) (src : Source) (b : Bool) : (s.setIe src b).ie = s.ie.set src b := rfl
@[simp] theorem State.setIe_pend (s : State) (src : Source) (b : Bool) : (s.setIe src b).pend = s.pend := rfl
@[simp] theorem State.setIe_ml (s : State) (src : Source) (b : Bool) : (s.setIe src b).ml = s.ml := rfl
@[simp] theorem State.setIe_draws (s : State) (src : Source) (b : Bool) : (s.setIe src b).draws = s.draws := rfl
@[simp] theorem State.setIe_prog (s : State) (src : Source) (b : Bool) : (s.setIe src b).prog = s.prog := rfl
@[simp] theorem State.setIe_turns (s : State) (src : Source) (b : Bool) : (s.setIe src b).turns = s.turns := rfl
@[simp] theorem State.setIe_trace (s : State) (src : Source) (b : Bool) : (s.setIe src b).trace = s.trace := rfl
@[simp] theorem State.setIe_chan (s : State) (src : Source) (b : Bool) (c : Channel) : (s.setIe src b).chan c = s.chan c := rfl
@[simp] theorem State.setIe_cap (s : State) (src : Source) (b : Bool) (c : Channel) : (s.setIe src b).cap c = s.cap c := rfl
@[simp] theorem State.setIe_len (s : State) (src : Source) (b : Bool) (c : Channel) : (s.setIe src b).len c = s.len c := rfl
@[simp] theorem State.setIe_head (s : State) (src : Source) (b : Bool) (c : Channel) : (s.setIe src b).head c = s.head c := rfl
@[simp] theorem State.setIe_tail (s : State) (src : Source) (b : Bool) (c : Channel) : (s.setIe src b).tail c = s.tail c := rfl
@[simp] theorem State.setIe_slot (s : State) (src : Source) (b : Bool) (c : Channel) (i : Nat) : (s.setIe src b).slot c i = s.slot c i := rfl
@[simp] theorem State.setIe_nextIdx (s : State) (src : Source) (b : Bool) (c : Channel) (i : Nat) : (s.setIe src b).nextIdx c i = s.nextIdx c i := rfl
@[simp] theorem State.setIe_advIdx (s : State) (src : Source) (b : Bool) (c : Channel) (i n : Nat) : (s.setIe src b).advIdx c i n = s.advIdx c i n := rfl
@[simp] theorem State.setIe_size (s : State) (src : Source) (b : Bool) (c : Channel) : (s.setIe src b).size c = s.size c := rfl
@[simp] theorem State.setIe_free (s : State) (src : Source) (b : Bool) (c : Channel) : (s.setIe src b).free c = s.free c := rfl
@[simp] theorem State.setIe_empty (s : State) (src : Source) (b : Bool) (c : Channel) : (s.setIe src b).empty c = s.empty c := rfl
@[simp] theorem State.setIe_full (s : State) (src : Source) (b : Bool) (c : Channel) : (s.setIe src b).full c = s.full c := rfl

@[simp] theorem State.setPend_par (s : State) (src : Source) (b : Bool) : (s.setPend src b).par = s.par := rfl
@[simp] theorem State.setPend_inb (s : State) (src : Source) (b : Bool) : (s.setPend src b).inb = s.inb := rfl
@[simp] theorem State.setPend_outb (s : State) (src : Source) (b : Bool) : (s.setPend src b).outb = s.outb := rfl
@[simp] theorem State.setPend_sr (s : State) (src : Source) (b : Bool) : (s.setPend src b).sr = s.sr := rfl
@[simp] theorem State.setPend_ie (s : State) (src : Source) (b : Bool) : (s.setPend src b).ie = s.ie := rfl
@[simp] theorem State.setPend_pend (s : State) (src : Source) (b : Bool) : (s.setPend src b).pend = s.pend.set src b := rfl
@[simp] theorem State.setPend_ml (s : State) (src : Source) (b : Bool) : (s.setPend src b).ml = s.ml := rfl
@[simp] theorem State.setPend_draws (s : State) (src : Source) (b : Bool) : (s.setPend src b).draws = s.draws := rfl
@[simp] theorem State.setPend_prog (s : State) (src : Source) (b : Bool) : (s.setPend src b).prog = s.prog := rfl
@[simp] theorem State.setPend_turns (s : State) (src : Source) (b : Bool) : (s.setPend src b).turns = s.turns := rfl
@[simp] theorem State.setPend_trace (s : State) (src : Source) (b : Bool) : (s.setPend src b).trace = s.trace := rfl
@[simp] theorem State.setPend_chan (s : State) (src : Source) (b : Bool) (c : Channel) : (s.setPend src b).chan c = s.chan c := rfl
@[simp] theorem State.setPend_cap (s : State) (src : Source) (b : Bool) (c : Channel) : (s.setPend src b).cap c = s.cap c := rfl
@[simp] theorem State.setPend_len (s : State) (src : Source) (b : Bool) (c : Channel) : (s.setPend src b).len c = s.len c := rfl
@[simp] theorem State.setPend_head (s : State) (src : Source) (b : Bool) (c : Channel) : (s.setPend src b).head c = s.head c := rfl
@[simp] theorem State.setPend_tail (s : State) (src : Source) (b : Bool) (c : Channel) : (s.setPend src b).tail c = s.tail c := rfl
@[simp] theorem State.setPend_slot (s : State) (src : Source) (b : Bool) (c : Channel) (i : Nat) : (s.setPend src b).slot c i = s.slot c i := rfl
@[simp] theorem State.setPend_nextIdx (s : State) (src : Source) (b : Bool) (c : Channel) (i : Nat) : (s.setPend src b).nextIdx c i = s.nextIdx c i := rfl
@[simp] theorem State.setPend_advIdx (s : State) (src : Source) (b : Bool) (c : Channel) (i n : Nat) : (s.setPend src b).advIdx c i n = s.advIdx c i n := rfl
@[simp] theorem State.setPend_size (s : State) (src : Source) (b : Bool) (c : Channel) : (s.setPend src b).size c = s.size c := rfl
@[simp] theorem State.setPend_free (s : State) (src : Source) (b : Bool) (c : Channel) : (s.setPend src b).free c = s.free c := rfl
@[simp] theorem State.setPend_empty (s : State) (src : Source) (b : Bool) (c : Channel) : (s.setPend src b).empty c = s.empty c := rfl
@[simp] theorem State.setPend_full (s : State) (src : Source) (b : Bool) (c : Channel) : (s.setPend src b).full c = s.full c := rfl

@[simp] theorem State.setMl_par (s : State) (m : MainLoop) : (s.setMl m).par = s.par := rfl
@[simp] theorem State.setMl_inb (s : State) (m : MainLoop) : (s.setMl m).inb = s.inb := rfl
@[simp] theorem State.setMl_outb (s : State) (m : MainLoop) : (s.setMl m).outb = s.outb := rfl
@[simp] theorem State.setMl_sr (s : State) (m : MainLoop) : (s.setMl m).sr = s.sr := rfl
@[simp] theorem State.setMl_ie (s : State) (m : MainLoop) : (s.setMl m).ie = s.ie := rfl
@[simp] theorem State.setMl_pend (s : State) (m : MainLoop) : (s.setMl m).pend = s.pend := rfl
@[simp] theorem State.setMl_ml (s : State) (m : MainLoop) : (s.setMl m).ml = m := rfl
@[simp] theorem State.setMl_draws (s : State) (m : MainLoop) : (s.setMl m).draws = s.draws := rfl
@[simp] theorem State.setMl_prog (s : State) (m : MainLoop) : (s.setMl m).prog = s.prog := rfl
@[simp] theorem State.setMl_turns (s : State) (m : MainLoop) : (s.setMl m).turns = s.turns := rfl
@[simp] theorem State.setMl_trace (s : State) (m : MainLoop) : (s.setMl m).trace = s.trace := rfl
@[simp] theorem State.setMl_chan (s : State) (m : MainLoop) (c : Channel) : (s.setMl m).chan c = s.chan c := rfl
@[simp] theorem State.setMl_cap (s : State) (m : MainLoop) (c : Channel) : (s.setMl m).cap c = s.cap c := rfl
@[simp] theorem State.setMl_len (s : State) (m : MainLoop) (c : Channel) : (s.setMl m).len c = s.len c := rfl
@[simp] theorem State.setMl_head (s : State) (m : MainLoop) (c : Channel) : (s.setMl m).head c = s.head c := rfl
@[simp] theorem State.setMl_tail (s : State) (m : MainLoop) (c : Channel) : (s.setMl m).tail c = s.tail c := rfl
@[simp] theorem State.setMl_slot (s : State) (m : MainLoop) (c : Channel) (i : Nat) : (s.setMl m).slot c i = s.slot c i := rfl
@[simp] theorem State.setMl_nextIdx (s : State) (m : MainLoop) (c : Channel) (i : Nat) : (s.setMl m).nextIdx c i = s.nextIdx c i := rfl
@[simp] theorem State.setMl_advIdx (s : State) (m : MainLoop) (c : Channel) (i n : Nat) : (s.setMl m).advIdx c i n = s.advIdx c i n := rfl
@[simp] theorem State.setMl_size (s : State) (m : MainLoop) (c : Channel) : (s.setMl m).size c = s.size c := rfl
@[simp] theorem State.setMl_free (s : State) (m : MainLoop) (c : Channel) : (s.setMl m).free c = s.free c := rfl
@[simp] theorem State.setMl_empty (s : State) (m : MainLoop) (c : Channel) : (s.setMl m).empty c = s.empty c := rfl
@[simp] theorem State.setMl_full (s : State) (m : MainLoop) (c : Channel) : (s.setMl m).full c = s.full c := rfl

@[simp] theorem State.observe_par (s : State) (o : Obs) : (s.observe o).par = s.par := rfl
@[simp] theorem State.observe_inb (s : State) (o : Obs) : (s.observe o).inb = s.inb := rfl
@[simp] theorem State.observe_outb (s : State) (o : Obs) : (s.observe o).outb = s.outb := rfl
@[simp] theorem State.observe_sr (s : State) (o : Obs) : (s.observe o).sr = s.sr := rfl
@[simp] theorem State.observe_ie (s : State) (o : Obs) : (s.observe o).ie = s.ie := rfl
@[simp] theorem State.observe_pend (s : State) (o : Obs) : (s.observe o).pend = s.pend := rfl
@[simp] theorem State.observe_ml (s : State) (o : Obs) : (s.observe o).ml = s.ml := rfl
@[simp] theorem State.observe_draws (s : State) (o : Obs) : (s.observe o).draws = s.draws := rfl
@[simp] theorem State.observe_prog (s : State) (o : Obs) : (s.observe o).prog = s.prog := rfl
@[simp] theorem State.observe_turns (s : State) (o : Obs) : (s.observe o).turns = s.turns := rfl
@[simp] theorem State.observe_trace (s : State) (o : Obs) : (s.observe o).trace = o :: s.trace := rfl
@[simp] theorem State.observe_chan (s : State) (o : Obs) (c : Channel) : (s.observe o).chan c = s.chan c := rfl
@[simp] theorem State.observe_cap (s : State) (o : Obs) (c : Channel) : (s.observe o).cap c = s.cap c := rfl
@[simp] theorem State.observe_len (s : State) (o : Obs) (c : Channel) : (s.observe o).len c = s.len c := rfl
@[simp] theorem State.observe_head (s : State) (o : Obs) (c : Channel) : (s.observe o).head c = s.head c := rfl
@[simp] theorem State.observe_tail (s : State) (o : Obs) (c : Channel) : (s.observe o).tail c = s.tail c := rfl
@[simp] theorem State.observe_slot (s : State) (o : Obs) (c : Channel) (i : Nat) : (s.observe o).slot c i = s.slot c i := rfl
@[simp] theorem State.observe_nextIdx (s : State) (o : Obs) (c : Channel) (i : Nat) : (s.observe o).nextIdx c i = s.nextIdx c i := rfl
@[simp] theorem State.observe_advIdx (s : State) (o : Obs) (c : Channel) (i n : Nat) : (s.observe o).advIdx c i n = s.advIdx c i n := rfl
@[simp] theorem State.observe_size (s : State) (o : Obs) (c : Channel) : (s.observe o).size c = s.size c := rfl
@[simp] theorem State.observe_free (s : State) (o : Obs) (c : Channel) : (s.observe o).free c = s.free c := rfl
@[simp] theorem State.observe_empty (s : State) (o : Obs) (c : Channel) : (s.observe o).empty c = s.empty c := rfl
@[simp] theorem State.observe_full (s : State) (o : Obs) (c : Channel) : (s.observe o).full c = s.full c := rfl

@[simp] theorem State.drawn_par (s : State) : (s.drawn).par = s.par := rfl
@[simp] theorem State.drawn_inb (s : State) : (s.drawn).inb = s.inb := rfl
@[simp] theorem State.drawn_outb (s : State) : (s.drawn).outb = s.outb := rfl
@[simp] theorem State.drawn_sr (s : State) : (s.drawn).sr = s.sr := rfl
@[simp] theorem State.drawn_ie (s : State) : (s.drawn).ie = s.ie := rfl
@[simp] theorem State.drawn_pend (s : State) : (s.drawn).pend = s.pend := rfl
@[simp] theorem State.drawn_ml (s : State) : (s.drawn).ml = s.ml := rfl
@[simp] theorem State.drawn_draws (s : State) : (s.drawn).draws = s.draws + 1 := rfl
@[simp] theorem State.drawn_prog (s : State) : (s.drawn).prog = s.prog := rfl
@[simp] theorem State.drawn_turns (s : State) : (s.drawn).turns = s.turns := rfl
@[simp] theorem State.drawn_trace (s : State) : (s.drawn).trace = s.trace := rfl
@[simp] theorem State.drawn_chan (s : State) (c : Channel) : (s.drawn).chan c = s.chan c := rfl
@[simp] theorem State.drawn_cap (s : State) (c : Channel) : (s.drawn).cap c = s.cap c := rfl
@[simp] theorem State.drawn_len (s : State) (c : Channel) : (s.drawn).len c = s.len c := rfl
@[simp] theorem State.drawn_head (s : State) (c : Channel) : (s.drawn).head c = s.head c := rfl
@[simp] theorem State.drawn_tail (s : State) (c : Channel) : (s.drawn).tail c = s.tail c := rfl
@[simp] theorem State.drawn_slot (s : State) (c : Channel) (i : Nat) : (s.drawn).slot c i = s.slot c i := rfl
@[simp] theorem State.drawn_nextIdx (s : State) (c : Channel) (i : Nat) : (s.drawn).nextIdx c i = s.nextIdx c i := rfl
@[simp] theorem State.drawn_advIdx (s : State) (c : Channel) (i n : Nat) : (s.drawn).advIdx c i n = s.advIdx c i n := rfl
@[simp] theorem State.drawn_size (s : State) (c : Channel) : (s.drawn).size c = s.size c := rfl
@[simp] theorem State.drawn_free (s : State) (c : Channel) : (s.drawn).free c = s.free c := rfl
@[simp] theorem State.drawn_empty (s : State) (c : Channel) : (s.drawn).empty c = s.empty c := rfl
@[simp] theorem State.drawn_full (s : State) (c : Channel) : (s.drawn).full c = s.full c := rfl

@[simp] theorem State.withChan_par (s : State) (c : Channel) (ch : Chan) : (s.withChan c ch).par = s.par := rfl
@[simp] theorem State.withChan_sr (s : State) (c : Channel) (ch : Chan) : (s.withChan c ch).sr = s.sr := rfl
@[simp] theorem State.withChan_ie (s : State) (c : Channel) (ch : Chan) : (s.withChan c ch).ie = s.ie := rfl
@[simp] theorem State.withChan_pend (s : State) (c : Channel) (ch : Chan) : (s.withChan c ch).pend = s.pend := rfl
@[simp] theorem State.withChan_ml (s : State) (c : Channel) (ch : Chan) : (s.withChan c ch).ml = s.ml := rfl
@[simp] theorem State.withChan_draws (s : State) (c : Channel) (ch : Chan) : (s.withChan c ch).draws = s.draws := rfl
@[simp] theorem State.withChan_prog (s : State) (c : Channel) (ch : Chan) : (s.withChan c ch).prog = s.prog := rfl
@[simp] theorem State.withChan_turns (s : State) (c : Channel) (ch : Chan) : (s.withChan c ch).turns = s.turns := rfl
@[simp] theorem State.withChan_trace (s : State) (c : Channel) (ch : Chan) : (s.withChan c ch).trace = s.trace := rfl
@[simp] theorem State.withChan_cap (s : State) (c : Channel) (ch : Chan) (c' : Channel) : (s.withChan c ch).cap c' = s.cap c' := rfl
@[simp] theorem State.withChan_len (s : State) (c : Channel) (ch : Chan) (c' : Channel) : (s.withChan c ch).len c' = s.len c' := rfl
@[simp] theorem State.withChan_nextIdx (s : State) (c : Channel) (ch : Chan) (c' : Channel) (i : Nat) : (s.withChan c ch).nextIdx c' i = s.nextIdx c' i := rfl
@[simp] theorem State.withChan_advIdx (s : State) (c : Channel) (ch : Chan) (c' : Channel) (i n : Nat) : (s.withChan c ch).advIdx c' i n = s.advIdx c' i n := rfl

@[simp] theorem State.withSlot_par (s : State) (c : Channel) (i : Nat) (v : Byte) : (s.withSlot c i v).par = s.par := rfl
@[simp] theorem State.withSlot_sr (s : State) (c : Channel) (i : Nat) (v : Byte) : (s.withSlot c i v).sr = s.sr := rfl
@[simp] theorem State.withSlot_ie (s : State) (c : Channel) (i : Nat) (v : Byte) : (s.withSlot c i v).ie = s.ie := rfl
@[simp] theorem State.withSlot_pend (s : State) (c : Channel) (i : Nat) (v : Byte) : (s.withSlot c i v).pend = s.pend := rfl
@[simp] theorem State.withSlot_ml (s : State) (c : Channel) (i : Nat) (v : Byte) : (s.withSlot c i v).ml = s.ml := rfl
@[simp] theorem State.withSlot_draws (s : State) (c : Channel) (i : Nat) (v : Byte) : (s.withSlot c i v).draws = s.draws := rfl
@[simp] theorem State.withSlot_prog (s : State) (c : Channel) (i : Nat) (v : Byte) : (s.withSlot c i v).prog = s.prog := rfl
@[simp] theorem State.withSlot_turns (s : State) (c : Channel) (i : Nat) (v : Byte) : (s.withSlot c i v).turns = s.turns := rfl
@[simp] theorem State.withSlot_trace (s : State) (c : Channel) (i : Nat) (v : Byte) : (s.withSlot c i v).trace = s.trace := rfl
@[simp] theorem State.withSlot_cap (s : State) (c : Channel) (i : Nat) (v : Byte) (c' : Channel) : (s.withSlot c i v).cap c' = s.cap c' := rfl
@[simp] theorem State.withSlot_len (s : State) (c : Channel) (i : Nat) (v : Byte) (c' : Channel) : (s.withSlot c i v).len c' = s.len c' := rfl
@[simp] theorem State.withSlot_nextIdx (s : State) (c : Channel) (i : Nat) (v : Byte) (c' : Channel) (k : Nat) : (s.withSlot c i v).nextIdx c' k = s.nextIdx c' k := rfl
@[simp] theorem State.withSlot_advIdx (s : State) (c : Channel) (i : Nat) (v : Byte) (c' : Channel) (k n : Nat) : (s.withSlot c i v).advIdx c' k n = s.advIdx c' k n := rfl

@[simp] theorem State.setHead_par (s : State) (c : Channel) (v : Nat) : (s.setHead c v).par = s.par := rfl
@[simp] theorem State.setHead_sr (s : State) (c : Channel) (v : Nat) : (s.setHead c v).sr = s.sr := rfl
@[simp] theorem State.setHead_ie (s : State) (c : Channel) (v : Nat) : (s.setHead c v).ie = s.ie := rfl
@[simp] theorem State.setHead_pend (s : State) (c : Channel) (v : Nat) : (s.setHead c v).pend = s.pend := rfl
@[simp] theorem State.setHead_ml (s : State) (c : Channel) (v : Nat) : (s.setHead c v).ml = s.ml := rfl
@[simp] theorem State.setHead_draws (s : State) (c : Channel) (v : Nat) : (s.setHead c v).draws = s.draws := rfl
@[simp] theorem State.setHead_prog (s : State) (c : Channel) (v : Nat) : (s.setHead c v).prog = s.prog := rfl
@[simp] theorem State.setHead_turns (s : State) (c : Channel) (v : Nat) : (s.setHead c v).turns = s.turns := rfl
@[simp] theorem State.setHead_trace (s : State) (c : Channel) (v : Nat) : (s.setHead c v).trace = s.trace := rfl
@[simp] theorem State.setHead_cap (s : State) (c : Channel) (v : Nat) (c' : Channel) : (s.setHead c v).cap c' = s.cap c' := rfl
@[simp] theorem State.setHead_len (s : State) (c : Channel) (v : Nat) (c' : Channel) : (s.setHead c v).len c' = s.len c' := rfl
@[simp] theorem State.setHead_nextIdx (s : State) (c : Channel) (v : Nat) (c' : Channel) (i : Nat) : (s.setHead c v).nextIdx c' i = s.nextIdx c' i := rfl
@[simp] theorem State.setHead_advIdx (s : State) (c : Channel) (v : Nat) (c' : Channel) (i n : Nat) : (s.setHead c v).advIdx c' i n = s.advIdx c' i n := rfl

@[simp] theorem State.setTail_par (s : State) (c : Channel) (v : Nat) : (s.setTail c v).par = s.par := rfl
@[simp] theorem State.setTail_sr (s : State) (c : Channel) (v : Nat) : (s.setTail c v).sr = s.sr := rfl
@[simp] theorem State.setTail_ie (s : State) (c : Channel) (v : Nat) : (s.setTail c v).ie = s.ie := rfl
@[simp] theorem State.setTail_pend (s : State) (c : Channel) (v : Nat) : (s.setTail c v).pend = s.pend := rfl
@[simp] theorem State.setTail_ml (s : State) (c : Channel) (v : Nat) : (s.setTail c v).ml = s.ml := rfl
@[simp] theorem State.setTail_draws (s : State) (c : Channel) (v : Nat) : (s.setTail c v).draws = s.draws := rfl
@[simp] theorem State.setTail_prog (s : State) (c : Channel) (v : Nat) : (s.setTail c v).prog = s.prog := rfl
@[simp] theorem State.setTail_turns (s : State) (c : Channel) (v : Nat) : (s.setTail c v).turns = s.turns := rfl
@[simp] theorem State.setTail_trace (s : State) (c : Channel) (v : Nat) : (s.setTail c v).trace = s.trace := rfl
@[simp] theorem State.setTail_cap (s : State) (c : Channel) (v : Nat) (c' : Channel) : (s.setTail c v).cap c' = s.cap c' := rfl
@[simp] theorem State.setTail_len (s : State) (c : Channel) (v : Nat) (c' : Channel) : (s.setTail c v).len c' = s.len c' := rfl
@[simp] theorem State.setTail_nextIdx (s : State) (c : Channel) (v : Nat) (c' : Channel) (i : Nat) : (s.setTail c v).nextIdx c' i = s.nextIdx c' i := rfl
@[simp] theorem State.setTail_advIdx (s : State) (c : Channel) (v : Nat) (c' : Channel) (i n : Nat) : (s.setTail c v).advIdx c' i n = s.advIdx c' i n := rfl

@[simp] theorem Lines.get_set_same (l : Lines) (src : Source) (b : Bool) : (l.set src b).get src = b := by cases src <;> rfl

theorem Lines.get_set_other (l : Lines) {src src' : Source} (b : Bool) (h : src' ≠ src) : (l.set src b).get src' = l.get src' := by
  cases src <;> cases src' <;> first | rfl | exact absurd rfl h

@[simp] theorem State.withChan_chan_same (s : State) (c : Channel) (ch : Chan) : (s.withChan c ch).chan c = ch := by
  cases c <;> rfl

theorem State.withChan_chan_other (s : State) {c c' : Channel} (ch : Chan) (h : c' ≠ c) : (s.withChan c ch).chan c' = s.chan c' := by
  cases c <;> cases c' <;> first | rfl | exact absurd rfl h

@[simp] theorem State.setHead_head (s : State) (c : Channel) (v : Nat) : (s.setHead c v).head c = v := by cases c <;> rfl

@[simp] theorem State.setHead_tail (s : State) (c c' : Channel) (v : Nat) : (s.setHead c v).tail c' = s.tail c' := by
  cases c <;> cases c' <;> rfl

@[simp] theorem State.setTail_tail (s : State) (c : Channel) (v : Nat) : (s.setTail c v).tail c = v := by cases c <;> rfl

@[simp] theorem State.setTail_head (s : State) (c c' : Channel) (v : Nat) : (s.setTail c v).head c' = s.head c' := by
  cases c <;> cases c' <;> rfl

@[simp] theorem State.setHead_slot (s : State) (c c' : Channel) (v i : Nat) : (s.setHead c v).slot c' i = s.slot c' i := by
  cases c <;> cases c' <;> rfl

@[simp] theorem State.setTail_slot (s : State) (c c' : Channel) (v i : Nat) : (s.setTail c v).slot c' i = s.slot c' i := by
  cases c <;> cases c' <;> rfl

@[simp] theorem State.withSlot_head (s : State) (c c' : Channel) (i : Nat) (v : Byte) : (s.withSlot c i v).head c' = s.head c' := by
  cases c <;> cases c' <;> rfl

@[simp] theorem State.withSlot_tail (s : State) (c c' : Channel) (i : Nat) (v : Byte) : (s.withSlot c i v).tail c' = s.tail c' := by
  cases c <;> cases c' <;> rfl

@[simp] theorem State.withSlot_buf (s : State) (c : Channel) (i : Nat) (v : Byte) :
    ((s.withSlot c i v).chan c).buf = Memory.write (s.chan c).buf i v := by cases c <;> rfl

@[simp] theorem complete_ml (m : Micro) (res : Res) (s : State) : (complete m res s).ml = .idle := rfl

@[simp] theorem complete_trace (m : Micro) (res : Res) (s : State) : (complete m res s).trace = .op (microOp m) res :: s.trace := rfl

theorem State.head_setHead_other (s : State) {c c' : Channel} (v : Nat) (h : c' ≠ c) : (s.setHead c v).head c' = s.head c' := by
  cases c <;> cases c' <;> first | rfl | exact absurd rfl h

theorem State.tail_setTail_other (s : State) {c c' : Channel} (v : Nat) (h : c' ≠ c) : (s.setTail c v).tail c' = s.tail c' := by
  cases c <;> cases c' <;> first | rfl | exact absurd rfl h

end Sys2Proof.Machine
end

