-- ==== Sys2Proof/Laws/Memory.lean ====
section
/-!
SUPPORT. The laws of memory: a read after a write, and that every operation keeps the canonical form and the bounds of the array.
-/

namespace Sys2Proof.Machine

@[simp] theorem Memory.read_write_same (m : Memory) (i : Nat) (v : Byte) : Memory.read (Memory.write m i v) i = some v := by
  induction m with
  | nil => simp [Memory.write, Memory.read]
  | cons a rest ih =>
    obtain ⟨j, w⟩ := a
    by_cases h : i < j
    · simp [Memory.write, Memory.read, h]
    · by_cases h' : i = j
      · simp [Memory.write, Memory.read, h']
      · simp [Memory.write, Memory.read, h, h', ih]

theorem Memory.read_write_other (m : Memory) {i k : Nat} (v : Byte) (hk : k ≠ i) :
    Memory.read (Memory.write m i v) k = Memory.read m k := by
  induction m with
  | nil => simp [Memory.write, Memory.read, hk]
  | cons a rest ih =>
    obtain ⟨j, w⟩ := a
    by_cases h : i < j
    · simp [Memory.write, Memory.read, h, hk]
    · by_cases h' : i = j
      · subst h'
        simp [Memory.write, Memory.read, hk]
      · simp [Memory.write, Memory.read, h, h', ih]

/-- What a written memory lists: the written cell and cells it listed before. -/
theorem Memory.mem_write {m : Memory} {i : Nat} {v : Byte} {cell : Host.Cell} (h : cell ∈ Memory.write m i v) :
    cell = (i, v) ∨ cell ∈ m := by
  induction m with
  | nil => exact .inl (by simpa [Memory.write] using h)
  | cons a rest ih =>
    obtain ⟨j, w⟩ := a
    simp only [Memory.write] at h
    split at h
    · simpa using h
    · split at h
      · rcases List.mem_cons.1 h with h | h
        · exact .inl h
        · exact .inr (List.mem_cons_of_mem _ h)
      · rcases List.mem_cons.1 h with h | h
        · exact .inr (h ▸ List.mem_cons_self)
        · exact (ih h).imp_right (List.mem_cons_of_mem _)

/-- A write keeps the canonical form. -/
theorem Memory.wf_write {m : Memory} (h : Memory.wf m) (i : Nat) (v : Byte) : Memory.wf (Memory.write m i v) := by
  induction m with
  | nil => simp [Memory.write]
  | cons a rest ih =>
    obtain ⟨j, w⟩ := a
    obtain ⟨hj, hr⟩ := List.pairwise_cons.1 h
    simp only [Memory.write]
    split
    · refine List.pairwise_cons.2 ⟨?_, h⟩
      intro b hb
      rcases List.mem_cons.1 hb with rfl | hb
      · assumption
      · exact Nat.lt_trans ‹_› (hj b hb)
    · split
      · subst_vars
        exact List.pairwise_cons.2 ⟨hj, hr⟩
      · refine List.pairwise_cons.2 ⟨?_, ih hr⟩
        intro b hb
        rcases Memory.mem_write hb with rfl | hb
        · exact Nat.lt_of_le_of_ne (Nat.le_of_not_lt ‹_›) (Ne.symm ‹_›)
        · exact hj b hb

/-- A write inside the array keeps every listed index inside it. -/
theorem Memory.lt_write {m : Memory} {n i : Nat} {v : Byte} (h : ∀ cell ∈ m, cell.1 < n) (hi : i < n) :
    ∀ cell ∈ Memory.write m i v, cell.1 < n := by
  intro cell hc
  rcases Memory.mem_write hc with rfl | hc
  · exact hi
  · exact h cell hc

/-- The memory after reset is in canonical form. -/
theorem Memory.wf_reset (c : Channel) : Memory.wf (State.reset.chan c).buf := by cases c <;> exact List.Pairwise.nil

@[simp] theorem State.withSlot_slot_same (s : State) (c : Channel) (i : Nat) (v : Byte) : (s.withSlot c i v).slot c i = some v := by
  simp [State.slot]

theorem State.withSlot_slot_other (s : State) (c : Channel) {i k : Nat} (v : Byte) (h : k ≠ i) :
    (s.withSlot c i v).slot c k = s.slot c k := by
  simp [State.slot, Memory.read_write_other _ v h]

theorem State.withSlot_slot_other_chan (s : State) {c c' : Channel} (i k : Nat) (v : Byte) (h : c' ≠ c) :
    (s.withSlot c i v).slot c' k = s.slot c' k := by
  cases c <;> cases c' <;> first | rfl | exact absurd rfl h

/-- The memory operations keep the canonical form of every channel's buffer. -/
theorem State.withSlot_wf (s : State) (c c' : Channel) (i : Nat) (v : Byte) (h : Memory.wf (s.chan c').buf) :
    Memory.wf ((s.withSlot c i v).chan c').buf := by
  cases c <;> cases c' <;> first | exact Memory.wf_write h i v | exact h

theorem State.setHead_wf (s : State) (c c' : Channel) (v : Nat) (h : Memory.wf (s.chan c').buf) :
    Memory.wf ((s.setHead c v).chan c').buf := by
  cases c <;> cases c' <;> exact h

theorem State.setTail_wf (s : State) (c c' : Channel) (v : Nat) (h : Memory.wf (s.chan c').buf) :
    Memory.wf ((s.setTail c v).chan c').buf := by
  cases c <;> cases c' <;> exact h

end Sys2Proof.Machine
end

