-- ==== Sys2Proof/Laws/Ops.lean ====
section
/-!
SUPPORT. One lemma per shared operation that says everything it can do, so that later proofs cite it instead of unfolding it.
-/

namespace Sys2Proof.Machine

theorem distance_lt {m : Nat} (hm : 0 < m) (h t : Nat) : distance m h t < m := Nat.mod_lt _ hm

theorem distance_of_le {m h t : Nat} (ht : t < m) (hle : h ≤ t) : distance m h t = t - h := by
  have hh : h % m = h := Nat.mod_eq_of_lt (by omega)
  rw [distance, hh, show t + (m - h) = (t - h) + m by omega, Nat.add_mod_right, Nat.mod_eq_of_lt (by omega)]

theorem distance_of_gt {m h t : Nat} (hh : h < m) (hgt : t < h) : distance m h t = t + m - h := by
  have hm : h % m = h := Nat.mod_eq_of_lt hh
  rw [distance, hm, show t + (m - h) = t + m - h by omega, Nat.mod_eq_of_lt (by omega)]

@[simp] theorem State.len_pos (s : State) (c : Channel) : 0 < s.len c := Nat.succ_pos _

theorem State.size_lt (s : State) (c : Channel) : s.size c < s.len c := distance_lt (s.len_pos c) _ _

theorem State.size_le_cap (s : State) (c : Channel) : s.size c ≤ s.cap c := Nat.le_of_lt_succ (s.size_lt c)

theorem State.nextIdx_lt (s : State) (c : Channel) (i : Nat) : s.nextIdx c i < s.len c := Nat.mod_lt _ (s.len_pos c)

theorem State.advIdx_lt (s : State) (c : Channel) (i n : Nat) : s.advIdx c i n < s.len c := Nat.mod_lt _ (s.len_pos c)

theorem slotRead_ok {c : Channel} {i : Nat} {s : State} {v : Byte} :
    slotRead c i s = .ok v ↔ i < s.len c ∧ s.slot c i = some v := by
  unfold slotRead
  by_cases h : i < s.len c
  · cases hv : s.slot c i <;> simp [h]
  · simp [h]

theorem slotWrite_ok {c : Channel} {i : Nat} {v : Byte} {s t : State} :
    slotWrite c i v s = .ok t ↔ i < s.len c ∧ t = s.withSlot c i v := by
  unfold slotWrite
  by_cases h : i < s.len c
  · simp [h, eq_comm]
  · simp [h]

theorem enqueue_ok {c : Channel} {b : Byte} {s t : State} :
    enqueue c b s = .ok t ↔
      s.tail c < s.len c ∧ t = (s.withSlot c (s.tail c) b).setTail c (s.nextIdx c (s.tail c)) := by
  unfold enqueue slotWrite
  by_cases h : s.tail c < s.len c
  · simp [h, eq_comm]
  · simp [h]

theorem dequeue_ok {c : Channel} {v : Byte} {s t : State} :
    dequeue c s = .ok (v, t) ↔
      s.head c < s.len c ∧ s.slot c (s.head c) = some v ∧ t = s.setHead c (s.nextIdx c (s.head c)) := by
  unfold dequeue
  cases h : slotRead c (s.head c) s with
  | ok w =>
    obtain ⟨h1, h2⟩ := slotRead_ok.1 h
    simp [h1, h2, eq_comm]
  | error f =>
    have h' : ¬ (s.head c < s.len c ∧ s.slot c (s.head c) = some v) := fun h0 => by
      rw [slotRead_ok.2 h0] at h
      cases h
    constructor
    · intro h0
      cases h0
    · rintro ⟨h1, h2, -⟩
      exact absurd ⟨h1, h2⟩ h'

/-- Everything an edge can do when it answers a next state: its handler ran, or it met its source masked. -/
theorem edge_next {src : Source} {handler : State → Except Fault (Obs × State)} {masked : State → Obs} {s t : State} :
    edge src handler masked s = .next t ↔
      (s.enabled src = true ∧ ∃ o u, handler s = .ok (o, u) ∧ t = u.observe o) ∨
      (s.enabled src = false ∧ t = (maskedEdge src s).observe (masked s)) := by
  unfold edge
  cases s.enabled src with
  | false => simp [eq_comm]
  | true =>
    cases h : handler s with
    | error f => simp
    | ok p =>
      obtain ⟨o, u⟩ := p
      simp only [Bool.true_eq_false, if_true, false_and, or_false, true_and, Except.ok.injEq, Prod.mk.injEq,
        Host.Outcome.next.injEq]
      constructor
      · intro h0
        exact ⟨o, u, ⟨rfl, rfl⟩, h0.symm⟩
      · rintro ⟨o', u', ⟨rfl, rfl⟩, rfl⟩
        rfl

/-- Everything a micro-step can do when it answers a next state. -/
theorem settle_next {m : Micro} {held : State} {p : Progress} {t : State} :
    settle m held p = .next t ↔
      (p = .hold ∧ t = held) ∨ (∃ m' u, p = .go m' u ∧ t = u.setMl (.inOp m')) ∨
      (∃ res u, p = .done res u ∧ t = complete m res u) := by
  cases p <;> simp [settle, eq_comm]

/-- Inside an operation the main loop issues nothing (R33). -/
theorem issueAndRun_busy {a : Admission} {s : State} {m : Micro} (h : s.ml = .inOp m) : issueAndRun a s = .next s := by
  simp [issueAndRun, h]

/-- An admitted operation of an idle main loop runs from its first micro-step. -/
theorem issueAndRun_admitted {m : Micro} {s : State} (h : s.ml = .idle) : issueAndRun (.admitted m) s = runFrom m s := by
  simp [issueAndRun, h]

/-- Everything an issue can do when it answers a next state. -/
theorem issueBy_next {a : Agent} {d : Desc} {run : Instr → Host.Outcome State Fault Refusal} {t : State} :
    issueBy a d run = .next t ↔ ∃ i, decode d = .ok i ∧ i.agent = a ∧ run i = .next t := by
  unfold issueBy
  cases h : decode d with
  | error e => simp
  | ok i =>
    by_cases ha : i.agent = a
    · simp [ha]
    · simp [ha]

/-- Everything a deferred run can do when it answers a next state (R157). -/
theorem deferredRun_next {src : Source} {s t : State} :
    deferredRun src s = .next t ↔
      (s.deferredEnabled src = true ∧ deferredHandler src (s.setPend src false) = .ok t) ∨
      (s.deferredEnabled src = false ∧ t = s) := by
  unfold deferredRun
  cases s.deferredEnabled src with
  | false => simp [eq_comm]
  | true =>
    cases h : deferredHandler src (s.setPend src false) with
    | ok u => simp
    | error f => simp

@[simp] theorem State.dueTurn_cons {s : State} {turn : Turn} {rest : List Turn} (h : s.turns = turn :: rest) :
    s.dueTurn = turn := by simp [State.dueTurn, h]

@[simp] theorem State.dueTurn_nil {s : State} (h : s.turns = []) : s.dueTurn = ownTurn s := by simp [State.dueTurn, h]

/-- Every step is one agent's turn, of the schedule or the block's own. -/
theorem step_eq_takeTurn (s : State) : step s = takeTurn s.dueTurn { s with turns := s.turns.tail } := rfl

/-- Everything the block's own turn can be: a deferred run that is enabled, or, when none is, a micro-step of the main loop. -/
theorem ownTurn_cases (s : State) :
    (∃ src, ownTurn s = .deferred src ∧ s.deferredEnabled src = true) ∨
    (ownTurn s = .micro ∧ ∀ src, s.deferredEnabled src = false) := by
  unfold ownTurn
  cases hr : s.deferredEnabled .rd with
  | true => exact .inl ⟨.rd, rfl, hr⟩
  | false =>
    cases hw : s.deferredEnabled .wr with
    | true => exact .inl ⟨.wr, rfl, hw⟩
    | false =>
      cases hm : s.deferredEnabled .mp with
      | true => exact .inl ⟨.mp, rfl, hm⟩
      | false => exact .inr ⟨rfl, fun src => by cases src <;> assumption⟩

/-- The read-strobe handler's three branches (R130). -/
theorem readHandler_ok {s t : State} {v : Byte} :
    readHandler s = .ok (v, t) ↔
      (statusBypass s.sr = true ∧ v = s.sr ∧ t = s) ∨
      (statusBypass s.sr = false ∧ s.empty .outbound = true ∧ v = s.par.underrun ∧ t = s) ∨
      (statusBypass s.sr = false ∧ s.empty .outbound = false ∧ dequeue .outbound s = .ok (v, t)) := by
  unfold readHandler
  cases statusBypass s.sr <;> cases s.empty .outbound <;> simp [eq_comm]

/-- The write-strobe handler's two branches (R131). -/
theorem writeHandler_ok {s t : State} {b : Byte} :
    writeHandler b s = .ok t ↔
      (s.full .inbound = true ∧ t = s.setSr s.par.overrun) ∨ (s.full .inbound = false ∧ enqueue .inbound b s = .ok t) := by
  unfold writeHandler
  cases s.full .inbound <;> simp [eq_comm]

/-- The media-presence handler's one completing branch (R132). -/
theorem mediaHandler_ok {s t : State} :
    mediaHandler s = .ok t ↔
      s.full .inbound = false ∧ ∃ u, enqueue .inbound s.par.hotplug s = .ok u ∧ t = u.setIe .mp false := by
  unfold mediaHandler
  cases s.full .inbound with
  | true => simp
  | false =>
    cases h : enqueue .inbound s.par.hotplug s with
    | ok u => simp [eq_comm]
    | error f => simp

/-- The read-strobe handler changes no cell but Outbound's, of which only `head` (R130). -/
theorem readHandler_frame {s t : State} {v : Byte} (h : readHandler s = .ok (v, t)) :
    t = { s with outb := { s.outb with head := t.outb.head } } := by
  obtain ⟨-, -, rfl⟩ | ⟨-, -, -, rfl⟩ | ⟨-, -, h⟩ := readHandler_ok.1 h
  · rfl
  · rfl
  · obtain ⟨-, -, rfl⟩ := dequeue_ok.1 h
    rfl

/-- The write-strobe handler reports an overrun and changes nothing else, or changes no cell but Inbound's slots and `tail`
(R131). -/
theorem writeHandler_frame {s t : State} {b : Byte} (h : writeHandler b s = .ok t) :
    (s.full .inbound = true ∧ t = { s with sr := s.par.overrun }) ∨
      t = { s with inb := { s.inb with buf := t.inb.buf, tail := t.inb.tail } } := by
  obtain ⟨hf, rfl⟩ | ⟨-, h⟩ := writeHandler_ok.1 h
  · exact .inl ⟨hf, rfl⟩
  · obtain ⟨-, rfl⟩ := enqueue_ok.1 h
    exact .inr rfl

/-- The media-presence handler masks itself and changes no other cell but Inbound's slots and `tail` (R132). -/
theorem mediaHandler_frame {s t : State} (h : mediaHandler s = .ok t) :
    t = { s with inb := { s.inb with buf := t.inb.buf, tail := t.inb.tail }, ie := { s.ie with mp := false } } := by
  obtain ⟨-, u, hu, rfl⟩ := mediaHandler_ok.1 h
  obtain ⟨-, rfl⟩ := enqueue_ok.1 hu
  rfl

end Sys2Proof.Machine
end

