-- ==== Sys2Proof/Laws/PerInstr.lean ====
section
/-!
SUPPORT. What is said of every operation, one lemma per constructor. Family `OperandBytes`: the encoded word's own fields tell how
many operand bytes follow it, "a decoder tells the length from `opc`" (30_encoding.md R85).
-/

namespace Sys2Proof.Laws.OperandBytes

/-- The encoded word tells how many operand bytes follow it. -/
def Statement (i : Instr) : Prop := i.wellFormed → (encode i).operands.length = (encode i).operandCount

theorem push (c : Channel) (b : Byte) : Statement (.push c b) := fun _ => by simp [encode, Desc.operandCount]

theorem pop (c : Channel) : Statement (.pop c) := fun _ => by simp [encode, Desc.operandCount]

theorem pushBlock (c : Channel) (bytes : List Byte) : Statement (.pushBlock c bytes) := by
  intro h
  have h' : bytes.length ≤ 255 := h
  simp [encode, Desc.operandCount, Nat.mod_eq_of_lt (show bytes.length < 256 by omega)]

theorem isEmpty (c : Channel) : Statement (.isEmpty c) := fun _ => by simp [encode, Desc.operandCount]

theorem isFull (c : Channel) : Statement (.isFull c) := fun _ => by simp [encode, Desc.operandCount]

theorem size (c : Channel) : Statement (.size c) := fun _ => by simp [encode, Desc.operandCount]

theorem clear (c : Channel) : Statement (.clear c) := fun _ => by simp [encode, Desc.operandCount]

theorem stwr (v : Byte) : Statement (.stwr v) := fun _ => by simp [encode, Desc.operandCount]

theorem irqenRd : Statement (.irqenRd) := fun _ => by simp [encode, Desc.operandCount]

theorem irqenWr : Statement (.irqenWr) := fun _ => by simp [encode, Desc.operandCount]

theorem irqenMp : Statement (.irqenMp) := fun _ => by simp [encode, Desc.operandCount]

theorem irqdisRd : Statement (.irqdisRd) := fun _ => by simp [encode, Desc.operandCount]

theorem irqdisWr : Statement (.irqdisWr) := fun _ => by simp [encode, Desc.operandCount]

theorem irqdisMp : Statement (.irqdisMp) := fun _ => by simp [encode, Desc.operandCount]

theorem rdstb : Statement (.rdstb) := fun _ => by simp [encode, Desc.operandCount]

theorem wrstb (b : Byte) : Statement (.wrstb b) := fun _ => by simp [encode, Desc.operandCount]

theorem mpedge : Statement (.mpedge) := fun _ => by simp [encode, Desc.operandCount]

end Sys2Proof.Laws.OperandBytes
end

