-- ==== Sys2Proof/Tests/Slice0.lean ====
section
/-!
SUPPORT. The model's own tests: descriptor words of 95_test_vectors.md section 2.1, single steps from its vectors (V numbers), and a
witness for the hypotheses of every statement that has some. Expected results are the spec's, under its test instantiation T1.
-/

namespace Sys2Proof.Tests

open Sys2Proof Sys2Proof.Machine

/-- Test instantiation T1 of 95_test_vectors.md section 0, with `MASKED_EDGE` and `N_OUT` as a vector wants them. -/
def t1 (masked : MaskedEdge) (nOut : Nat) : Params where
  nIn := 3
  nOut := nOut
  idxW := 8
  overrun := 0xE1#8
  underrun := 0xE2#8
  hotplug := 0x7E#8
  intermediate := 0x80#8
  maskedEdge := masked
  deadline := 0

/-- A state with given channels, SR and enable bits; nothing pending, ML idle. -/
def mk (inb outb : Chan) (sr : Byte) (ie : Lines) : State where
  par := t1 .latched 3
  inb := inb
  outb := outb
  sr := sr
  ie := ie
  pend := Lines.zero
  ml := .idle
  draws := 0
  prog := []
  turns := []
  trace := []

/-- `{h,t}[...]` of the vectors. -/
def ch (head tail : Nat) (buf : Memory) : Chan := { buf := buf, head := head, tail := tail }

/-- Enable bits `(RD,WR,MP)` of the vectors. -/
def lines (rd wr mp : Bool) : Lines := { rd := rd, wr := wr, mp := mp }

/-- Every source enabled. -/
def on : Lines := lines true true true

/-- The next state, if there is one. -/
def nextOf : Host.Outcome State Fault Refusal → Option State
  | .next t => some t
  | .fault _ => none
  | .refused _ => none

/-- The fault, if there is one. -/
def faultOf : Host.Outcome State Fault Refusal → Option Fault
  | .next _ => none
  | .fault f => some f
  | .refused _ => none

/-- The refusal, if there is one. -/
def refusalOf : Host.Outcome State Fault Refusal → Option Refusal
  | .next _ => none
  | .fault _ => none
  | .refused r => some r

/-- An empty channel. -/
def none0 : Chan := ch 0 0 []

/-! ### The smoke test of WellFormed -/

theorem test_wellformed_block_255 : (Instr.pushBlock .outbound (List.replicate 255 0#8)).wellFormed := by
  rw [Instr.wellFormed, List.length_replicate, maxBlock]

theorem test_illformed_block_256 : ¬ (Instr.pushBlock .outbound (List.replicate 256 0#8)).wellFormed := by
  rw [Instr.wellFormed, List.length_replicate, maxBlock]
  omega

/-! ### Decoding: a word of every constructor, written out bit by bit from the encoding column of R84 -/

theorem test_decode_push : decode ⟨0b0001000101000001#16, []⟩ = .ok (.push .outbound 0x41#8) := by decide
theorem test_decode_push_in : decode ⟨0b0001000001000001#16, []⟩ = .ok (.push .inbound 0x41#8) := by decide
theorem test_decode_pop : decode ⟨0b0010000100000000#16, []⟩ = .ok (.pop .outbound) := by decide
theorem test_decode_pushblock :
    decode ⟨0b0011000100000010#16, [0xAA#8, 0xBB#8]⟩ = .ok (.pushBlock .outbound [0xAA#8, 0xBB#8]) := by decide
theorem test_decode_pushblock_empty : decode ⟨0b0011000100000000#16, []⟩ = .ok (.pushBlock .outbound []) := by decide
theorem test_decode_isempty : decode ⟨0b0100000000000000#16, []⟩ = .ok (.isEmpty .inbound) := by decide
theorem test_decode_isfull : decode ⟨0b0101000100000000#16, []⟩ = .ok (.isFull .outbound) := by decide
theorem test_decode_size : decode ⟨0b0110000000000000#16, []⟩ = .ok (.size .inbound) := by decide
theorem test_decode_clear : decode ⟨0b0111000100000000#16, []⟩ = .ok (.clear .outbound) := by decide
theorem test_decode_stwr : decode ⟨0b1000000010000000#16, []⟩ = .ok (.stwr 0x80#8) := by decide
theorem test_decode_irqen_rd : decode ⟨0b1001000000000000#16, []⟩ = .ok .irqenRd := by decide
theorem test_decode_irqen_wr : decode ⟨0b1001000100000000#16, []⟩ = .ok .irqenWr := by decide
theorem test_decode_irqen_mp : decode ⟨0b1001001000000000#16, []⟩ = .ok .irqenMp := by decide
theorem test_decode_irqdis_rd : decode ⟨0b1010000000000000#16, []⟩ = .ok .irqdisRd := by decide
theorem test_decode_irqdis_wr : decode ⟨0b1010000100000000#16, []⟩ = .ok .irqdisWr := by decide
theorem test_decode_irqdis_mp : decode ⟨0b1010001000000000#16, []⟩ = .ok .irqdisMp := by decide
theorem test_decode_rdstb : decode ⟨0b1100000000000000#16, []⟩ = .ok .rdstb := by decide
theorem test_decode_wrstb : decode ⟨0b1101000001000001#16, []⟩ = .ok (.wrstb 0x41#8) := by decide
theorem test_decode_mpedge : decode ⟨0b1110000000000000#16, []⟩ = .ok .mpedge := by decide

/-- The illegal words of section 2.1. -/
theorem test_decode_illegal :
    [0x1200#16, 0x1341#16, 0x1841#16, 0x2001#16, 0x21FF#16, 0x2200#16, 0x7101#16, 0x8180#16, 0x9300#16, 0x9400#16, 0x9001#16,
      0xA300#16, 0xC001#16, 0xC100#16, 0xD141#16, 0xE0FF#16, 0xE100#16, 0x0000#16, 0x0FFF#16, 0xB000#16, 0xBABE#16, 0xF000#16,
      0xFFFF#16].all (fun w => (decode ⟨w, []⟩).toOption.isNone) = true := by decide

/-- A block descriptor with a missing or a spare operand byte is none (R85). -/
theorem test_decode_operand_count :
    decode ⟨0x3102#16, [0xAA#8]⟩ = .error .operandCount ∧ decode ⟨0x2000#16, [0xAA#8]⟩ = .error .operandCount := by decide

/-- A table word of 16 bits: a block's operand bytes are zeros. -/
theorem test_table_word :
    decodeTableWord 16 0x3102 = some (.pushBlock .outbound [0#8, 0#8]) ∧ decodeTableWord 16 0xB000 = none := by decide

/-- Every row's pattern of the opcode table decodes (R84). -/
theorem test_table_rows :
    opcodeTable.all (fun r => (decodeTableWord 16 r.pattern.toNat).isSome) = true := by decide

/-! ### Single operations -/

/-- V2: PUSH wraps the tail and fills the channel. -/
theorem test_push_wraps :
    (nextOf (exec (.push .outbound 0x43#8) (mk none0 (ch 1 3 [(1, 0x41#8), (2, 0x42#8)]) 0#8 on))).map (·.outb) =
      some (ch 1 0 [(1, 0x41#8), (2, 0x42#8), (3, 0x43#8)]) := by decide

/-- V3: PUSH holds on a full channel. -/
theorem test_push_holds :
    (nextOf (exec (.push .outbound 0x44#8) (mk none0 (ch 0 3 [(0, 1#8), (1, 2#8), (2, 3#8)]) 0#8 on))).map
      (fun t => (t.ml, t.outb)) = some (.inOp (.push1 .outbound 0x44#8), ch 0 3 [(0, 1#8), (1, 2#8), (2, 3#8)]) := by decide

/-- V7: POP wraps the head. -/
theorem test_pop_wraps :
    (nextOf (exec (.pop .inbound) (mk (ch 3 1 [(0, 6#8), (3, 5#8)]) none0 0#8 on))).map (fun t => (t.inb.head, t.trace)) =
      some (0, [.op (.pop .inbound) (.byte 5#8)]) := by decide

/-- V11: POP OUT while RD is enabled. -/
theorem test_pop_out_refused :
    refusalOf (exec (.pop .outbound) (mk none0 (ch 0 2 [(0, 0x41#8), (1, 0x42#8)]) 0#8 on)) = some .roleViolation := by decide

/-- V13: a block across the buffer end, `N = 4`. -/
theorem test_pushblock_wraps :
    (nextOf (exec (.pushBlock .outbound [0xA0#8, 0xA1#8, 0xA2#8])
      { mk none0 (ch 3 3 []) 0#8 on with par := t1 .latched 4 })).map (·.outb) =
      some (ch 3 1 [(0, 0xA2#8), (3, 0xA0#8), (4, 0xA1#8)]) := by decide

/-- V17: a block holds although one slot is free, `N = 4`. -/
theorem test_pushblock_holds :
    (nextOf (exec (.pushBlock .outbound [1#8, 2#8])
      { mk none0 (ch 1 4 [(1, 7#8), (2, 8#8), (3, 9#8)]) 0#8 on with par := t1 .latched 4 })).map (fun t => (t.ml, t.outb.tail)) =
      some (.inOp (.block1 .outbound [1#8, 2#8]), 4) := by decide

/-- V22: ISEMPTY. -/
theorem test_isempty :
    [ch 2 2 [], ch 2 3 [], ch 0 3 []].map
      (fun c => (nextOf (exec (.isEmpty .inbound) (mk c none0 0#8 on))).map (·.trace)) =
      [some [.op (.isEmpty .inbound) (.bit true)], some [.op (.isEmpty .inbound) (.bit false)],
        some [.op (.isEmpty .inbound) (.bit false)]] := by decide

/-- V23: ISFULL. -/
theorem test_isfull :
    [ch 0 3 [], ch 1 0 [], ch 1 3 [], ch 2 2 []].map
      (fun c => (nextOf (exec (.isFull .outbound) (mk none0 c 0#8 on))).map (·.trace)) =
      [some [.op (.isFull .outbound) (.bit true)], some [.op (.isFull .outbound) (.bit true)],
        some [.op (.isFull .outbound) (.bit false)], some [.op (.isFull .outbound) (.bit false)]] := by decide

/-- V24: SIZE. -/
theorem test_size :
    [ch 3 1 [], ch 0 3 [], ch 2 2 [], ch 1 0 []].map
      (fun c => (nextOf (exec (.size .inbound) (mk c none0 0#8 on))).map (·.trace)) =
      [some [.op (.size .inbound) (.num 2)], some [.op (.size .inbound) (.num 3)], some [.op (.size .inbound) (.num 0)],
        some [.op (.size .inbound) (.num 3)]] := by decide

/-- V25: CLEAR OUT keeps the slots' bytes. -/
theorem test_clear_out :
    (nextOf (exec (.clear .outbound) (mk none0 (ch 3 1 [(0, 2#8), (3, 1#8)]) 0#8 (lines false true true)))).map (·.outb) =
      some (ch 0 0 [(0, 2#8), (3, 1#8)]) := by decide

/-- V27: `IE[MP] = 1` is enough to fault CLEAR IN. -/
theorem test_clear_in_faults :
    faultOf (exec (.clear .inbound) (mk (ch 1 2 [(1, 1#8)]) none0 0#8 (lines true false true))) =
      some (.clearUnmasked .inbound) := by decide

/-- V41: STWR leaves Outbound alone. -/
theorem test_stwr :
    (nextOf (exec (.stwr 0xFF#8) (mk none0 (ch 0 1 [(0, 0x41#8)]) 0#8 on))).map (fun t => (t.sr, t.outb)) =
      some (0xFF#8, ch 0 1 [(0, 0x41#8)]) := by decide

theorem test_irqen_rd : (nextOf (exec .irqenRd (mk none0 none0 0#8 (lines false false false)))).map (·.ie) =
    some (lines true false false) := by decide

/-- V45. -/
theorem test_irqen_wr : (nextOf (exec .irqenWr (mk none0 none0 0#8 (lines false false false)))).map (·.ie) =
    some (lines false true false) := by decide

/-- V46: IRQEN MP leaves the pending bit. -/
theorem test_irqen_mp :
    (nextOf (exec .irqenMp { mk none0 none0 0#8 (lines true true false) with pend := lines false false true })).map
      (fun t => (t.ie, t.pend)) = some (on, lines false false true) := by decide

/-- V48. -/
theorem test_irqdis_rd : (nextOf (exec .irqdisRd (mk none0 none0 0#8 on))).map (·.ie) = some (lines false true true) := by decide

theorem test_irqdis_wr : (nextOf (exec .irqdisWr (mk none0 none0 0#8 on))).map (·.ie) = some (lines true false true) := by decide

/-- V49. -/
theorem test_irqdis_mp : (nextOf (exec .irqdisMp (mk none0 none0 0#8 (lines true true false)))).map (·.ie) =
    some (lines true true false) := by decide

/-- V63: a terminal SR lets the read pop. -/
theorem test_rdstb_pops :
    (nextOf (exec .rdstb (mk none0 (ch 1 3 [(1, 0x41#8), (2, 0x42#8)]) 0x7F#8 on))).map (fun t => (t.trace, t.outb.head)) =
      some ([.read 0x41#8], 2) := by decide

/-- V60: a bypassing SR wins over queued bytes. -/
theorem test_rdstb_bypass :
    (nextOf (exec .rdstb (mk none0 (ch 1 3 [(1, 0x41#8), (2, 0x42#8)]) 0x85#8 on))).map (fun t => (t.trace, t.outb.head)) =
      some ([.read 0x85#8], 1) := by decide

/-- V71: WRSTB wraps the tail. -/
theorem test_wrstb_wraps :
    (nextOf (exec (.wrstb 0x55#8) (mk (ch 2 3 [(2, 1#8)]) none0 0#8 on))).map (·.inb) =
      some (ch 2 0 [(2, 1#8), (3, 0x55#8)]) := by decide

/-- V69: an overrun goes to SR and the byte is lost. -/
theorem test_wrstb_overrun :
    (nextOf (exec (.wrstb 8#8) (mk (ch 0 3 [(0, 1#8), (1, 2#8), (2, 3#8)]) none0 0x80#8 on))).map (fun t => (t.sr, t.inb)) =
      some (0xE1#8, ch 0 3 [(0, 1#8), (1, 2#8), (2, 3#8)]) := by decide

/-- V72: MPEDGE pushes and masks itself. -/
theorem test_mpedge :
    (nextOf (exec .mpedge (mk (ch 1 1 []) none0 0#8 on))).map (fun t => (t.inb, t.ie)) =
      some (ch 1 2 [(1, 0x7E#8)], lines true true false) := by decide

/-- V73: MPEDGE on a full Inbound. -/
theorem test_mpedge_full :
    faultOf (exec .mpedge (mk (ch 0 3 [(0, 1#8), (1, 2#8), (2, 3#8)]) none0 0#8 on)) = some .hotplugPushOnFull := by decide

/-! ### Masked edges, deferred runs, interleavings -/

/-- V80, latched: a masked write is not stored and is remembered. -/
theorem test_masked_write :
    (nextOf (exec (.wrstb 0x55#8) (mk (ch 0 1 [(0, 1#8)]) none0 0#8 (lines true false true)))).map (fun t => (t.inb.tail, t.pend)) =
      some (1, lines false true false) := by decide

/-- V84: a deferred read pops a byte that no transaction gets. -/
theorem test_deferred_read :
    (nextOf (deferredRun .rd { mk none0 (ch 0 1 [(0, 0x41#8)]) 0#8 on with pend := lines true false false })).map
      (fun t => (t.outb.head, t.pend, t.trace)) = some (1, Lines.zero, []) := by decide

/-- V86: a deferred media edge pushes a second pseudo-command and masks MP again. -/
theorem test_deferred_media :
    (nextOf (deferredRun .mp { mk (ch 2 2 []) none0 0#8 on with pend := lines false false true })).map
      (fun t => (t.inb, t.ie.mp, t.pend.mp)) = some (ch 2 3 [(2, 0x7E#8)], false, false) := by decide

/-- V93: after two slot writes a block may publish the first byte early. -/
theorem test_early_publication :
    (match microBlock2 1 .outbound [0x0A#8, 0x0B#8, 0x0C#8] 0 2 0 (mk none0 (ch 0 0 [(0, 0x0A#8), (1, 0x0B#8)]) 0#8 on) with
      | .go m t => some (m, t.outb.tail)
      | _ => none) = some (.block2 .outbound [0x0A#8, 0x0B#8, 0x0C#8] 0 2 1, 1) := by decide

/-- V92: a query may read `tail` before or after a push. -/
theorem test_query_orders :
    (match microQuery1 1 .size .inbound (mk (ch 0 1 [(0, 1#8)]) none0 0#8 on) with
      | .go m _ => some m
      | _ => none) = some (.queryHead .size .inbound 1) ∧
    (match microQuery1 0 .size .inbound (mk (ch 0 1 [(0, 1#8)]) none0 0#8 on) with
      | .go m _ => some m
      | _ => none) = some (.queryTail .size .inbound 0) := by decide

/-- V46 and R157: with an empty schedule an enabled latched edge is served first. -/
theorem test_own_turn :
    ownTurn { mk none0 none0 0#8 on with pend := lines false false true } = .deferred .mp := by decide

/-- The agent checks of section 2.1: `ML: 0xC000` and `HOST: 0xE000` are refused. -/
theorem test_wrong_agent :
    refusalOf (step { mk none0 none0 0#8 on with prog := [⟨0xC000#16, []⟩], turns := [.mainLoop] }) = some .wrongAgent ∧
    refusalOf (step { mk none0 none0 0#8 on with turns := [.host ⟨0xE000#16, []⟩] }) = some .wrongAgent := by decide

/-- A table word placed for fetch is what the next step runs. -/
theorem test_fetch_word :
    (nextOf (step ((mk none0 none0 0#8 on).withFetchWord 16 0x8085))).map (·.sr) = some 0x85#8 ∧
    (nextOf (step ((mk (ch 0 0 []) none0 0#8 on).withFetchWord 16 0xD041))).map (·.inb) = some (ch 0 1 [(0, 0x41#8)]) := by decide

/-! ### Witnesses: for the hypotheses of each statement, a state and operands that meet them together -/

/-- Three bytes in Inbound or Outbound, full at `{0,3}`. -/
def full3 : Chan := ch 0 3 [(0, 1#8), (1, 2#8), (2, 3#8)]

/-- One byte left at the top slot, `{3,0}`. -/
def top1 : Chan := ch 3 0 [(3, 9#8)]

/-- Idle, both channels with data, terminal SR, every source enabled. -/
def busy2 : State := mk top1 top1 0x7F#8 on

/-- Idle, about to issue a POP, the main loop's turn. -/
def aboutToPop : State := { busy2 with turns := [.mainLoop], prog := [⟨0x2000#16, []⟩] }

theorem witness_StepRunsDecodedOperation :
    (decode ⟨0x2000#16, []⟩ = .ok (.pop .inbound) ∧ (Instr.pop .inbound).agent = .mainLoop ∧ aboutToPop.turns = [.mainLoop] ∧
      aboutToPop.ml = .idle ∧ aboutToPop.prog = [⟨0x2000#16, []⟩]) ∧
    (decode ⟨0xC000#16, []⟩ = .ok .rdstb ∧ Instr.rdstb.agent = .host ∧
      ({ busy2 with turns := [.host ⟨0xC000#16, []⟩] } : State).turns = [.host ⟨0xC000#16, []⟩]) ∧
    (decode ⟨0xE000#16, []⟩ = .ok .mpedge ∧ Instr.mpedge.agent = .line ∧
      ({ busy2 with turns := [.line ⟨0xE000#16, []⟩] } : State).turns = [.line ⟨0xE000#16, []⟩]) := by decide

/-- Idle, about to issue an illegal word. -/
def aboutToIssueIllegal : State := { busy2 with turns := [.micro], prog := [⟨0xFFFF#16, []⟩] }

theorem witness_IllegalDescriptorRefused :
    decode ⟨0xFFFF#16, []⟩ = .error .reservedOpcode ∧ aboutToIssueIllegal.turns = [.micro] ∧ aboutToIssueIllegal.ml = .idle ∧
    aboutToIssueIllegal.prog = [⟨0xFFFF#16, []⟩] ∧
    ({ busy2 with turns := [.host ⟨0xFFFF#16, []⟩] } : State).turns = [.host ⟨0xFFFF#16, []⟩] := by decide

/-- Idle, about to issue the host's read strobe. -/
def aboutToIssueRead : State := { busy2 with turns := [.mainLoop], prog := [⟨0xC000#16, []⟩] }

theorem witness_WrongAgentRefused :
    (decode ⟨0xC000#16, []⟩ = .ok .rdstb ∧ Instr.rdstb.agent ≠ .mainLoop ∧ aboutToIssueRead.turns = [.mainLoop] ∧
      aboutToIssueRead.ml = .idle ∧ aboutToIssueRead.prog = [⟨0xC000#16, []⟩]) ∧
    (decode ⟨0x1141#16, []⟩ = .ok (.push .outbound 0x41#8) ∧ (Instr.push .outbound 0x41#8).agent ≠ .host ∧
      ({ busy2 with turns := [.host ⟨0x1141#16, []⟩] } : State).turns = [.host ⟨0x1141#16, []⟩]) ∧
    (Instr.rdstb.agent ≠ .line ∧
      ({ busy2 with turns := [.line ⟨0xC000#16, []⟩] } : State).turns = [.line ⟨0xC000#16, []⟩]) := by decide

theorem witness_DecodeOfEncode : (Instr.pushBlock .outbound [1#8]).wellFormed := by decide

theorem witness_EncodeOfDecode : decode ⟨0x3101#16, [0xFF#8]⟩ = .ok (.pushBlock .outbound [0xFF#8]) := by
  decide

theorem witness_OpcodeRowsDoNotOverlap :
    (⟨0x9200#16, 0xFFFF#16⟩ : TableRow) ∈ opcodeTable ∧ (⟨0x9200#16, 0xFFFF#16⟩ : TableRow).selects 0x9200#16 := by decide

/-- The tail at the top slot. -/
theorem witness_PushCompletes :
    let s := mk none0 (ch 1 3 [(1, 1#8), (2, 2#8)]) 0#8 on
    s.ml = .idle ∧ s.outb.tail < s.par.nOut + 1 ∧ (s.outb.tail + 1) % (s.par.nOut + 1) ≠ s.outb.head := by decide

theorem witness_PushHoldsWhileFull :
    let s := mk none0 full3 0#8 on
    s.ml = .idle ∧ (s.outb.tail + 1) % (s.par.nOut + 1) = s.outb.head := by decide

theorem witness_WrongRoleRefused : busy2.ml = .idle ∧ busy2.ie.rd = true := by decide

/-- The head at the top slot; Outbound while RD is masked. -/
theorem witness_PopCompletes :
    let s := mk top1 top1 0#8 (lines false true true)
    s.ml = .idle ∧ s.ie.rd = false ∧ s.head .outbound ≠ s.tail .outbound ∧ s.head .outbound < s.cap .outbound + 1 ∧
      s.slot .outbound (s.head .outbound) = some 9#8 ∧ s.head .inbound ≠ s.tail .inbound ∧
      s.slot .inbound (s.head .inbound) = some 9#8 := by decide

theorem witness_PopHoldsWhileEmpty :
    let s := mk (ch 3 3 []) none0 0#8 (lines false true true)
    s.ml = .idle ∧ s.ie.rd = false ∧ s.head .inbound = s.tail .inbound ∧ s.head .outbound = s.tail .outbound := by decide

/-- A block that fills the channel exactly and wraps; and the empty block on a full channel. -/
theorem witness_PushBlockCompletes :
    (let s := mk none0 top1 0#8 on
     s.ml = .idle ∧ s.outb.tail < s.par.nOut + 1 ∧ [1#8, 2#8].length ≤ s.free .outbound) ∧
    (let s := mk none0 full3 0#8 on
     s.ml = .idle ∧ s.outb.tail < s.par.nOut + 1 ∧ ([] : List Byte).length ≤ s.free .outbound) := by decide

/-- One byte more than fits. -/
theorem witness_PushBlockHoldsWhileShort : busy2.ml = .idle ∧ busy2.free .outbound < [1#8, 2#8, 3#8].length := by decide

theorem witness_QueriesComplete : busy2.ml = .idle := by decide

theorem witness_ClearCompletes :
    (mk none0 none0 0#8 (lines false true true)).ie.rd = false ∧
    (let s := mk none0 none0 0#8 (lines true false false)
     s.ml = .idle ∧ s.ie.wr = false ∧ s.ie.mp = false) := by decide

theorem witness_ClearUnmaskedFaults :
    busy2.ml = .idle ∧ busy2.ie.rd = true ∧ (mk none0 none0 0#8 (lines true false true)).ie.mp = true ∧
    (mk none0 none0 0#8 (lines true true false)).ie.wr = true := by decide

theorem witness_StwrWritesStatus : busy2.ml = .idle := by decide

theorem witness_IrqenEnables : busy2.ml = .idle := by decide

theorem witness_IrqdisMasks : busy2.ml = .idle := by decide

/-- The three branches: the smallest bypassing status, the largest terminal one with the head at the top slot, and empty. -/
theorem witness_RdstbSelects :
    ((mk none0 top1 0x80#8 on).ie.rd = true ∧ (mk none0 top1 0x80#8 on).sr.getLsbD 7 = true) ∧
    (busy2.ie.rd = true ∧ busy2.sr.getLsbD 7 = false ∧ busy2.outb.head ≠ busy2.outb.tail ∧
      busy2.outb.head < busy2.par.nOut + 1 ∧ busy2.slot .outbound busy2.outb.head = some 9#8) ∧
    (let s := mk none0 (ch 3 3 []) 0x7F#8 on
     s.ie.rd = true ∧ s.sr.getLsbD 7 = false ∧ s.outb.head = s.outb.tail) := by decide

theorem witness_StatusPreemptsData :
    ((mk none0 top1 0x80#8 on).ie.rd = true ∧ (mk none0 top1 0x80#8 on).sr.getLsbD 7 = true) ∧
    (busy2.ie.rd = true ∧ busy2.sr.getLsbD 7 = false ∧ (nextOf (exec .rdstb busy2)).isSome = true ∧ (0#8).getLsbD 7 = false) := by
  decide

/-- The last free slot is the top one; and full. -/
theorem witness_WrstbPushesOrReports :
    (let s := mk (ch 1 3 [(1, 1#8), (2, 2#8)]) none0 0#8 on
     s.ie.wr = true ∧ (s.inb.tail + 1) % (s.par.nIn + 1) ≠ s.inb.head ∧ s.inb.tail < s.par.nIn + 1) ∧
    (let s := mk full3 none0 0#8 on
     s.ie.wr = true ∧ (s.inb.tail + 1) % (s.par.nIn + 1) = s.inb.head) := by decide

theorem witness_MpedgePushesAndMasksItself :
    let s := mk (ch 1 3 [(1, 1#8), (2, 2#8)]) none0 0#8 on
    s.ie.mp = true ∧ (s.inb.tail + 1) % (s.par.nIn + 1) ≠ s.inb.head ∧ s.inb.tail < s.par.nIn + 1 := by decide

theorem witness_MpedgeOnFullFaults :
    let s := mk full3 none0 0#8 on
    s.ie.mp = true ∧ (s.inb.tail + 1) % (s.par.nIn + 1) = s.inb.head := by decide

theorem witness_MaskedEdgeLostOrLatched :
    let s := mk none0 none0 0#8 (lines false false false)
    s.ie.rd = false ∧ s.ie.wr = false ∧ s.ie.mp = false ∧ s.par.maskedEdge = .latched ∧ (t1 .lost 3).maskedEdge = .lost := by decide

/-- Every clause: a read that pops at the top slot, one that bypasses, one on an empty channel, a write and a media edge that push
at the top slot, and both on a full Inbound. -/
theorem witness_DeferredRunServesLatchedEdge :
    (let s := { mk (ch 1 3 [(1, 1#8), (2, 2#8)]) top1 0x7F#8 on with pend := on }
     s.ie = on ∧ s.pend = on ∧ s.sr.getLsbD 7 = false ∧ s.outb.head ≠ s.outb.tail ∧ s.outb.head < s.par.nOut + 1 ∧
       (s.slot .outbound s.outb.head).isSome = true ∧ (s.inb.tail + 1) % (s.par.nIn + 1) ≠ s.inb.head ∧
       s.inb.tail < s.par.nIn + 1) ∧
    (let s := { mk full3 none0 0x80#8 on with pend := on }
     s.ie = on ∧ s.pend = on ∧ s.sr.getLsbD 7 = true ∧ s.outb.head = s.outb.tail ∧
       (s.inb.tail + 1) % (s.par.nIn + 1) = s.inb.head) := by decide

/-- The deferred turns of the schedule, masked and with nothing pending, and an enabled one on an empty schedule. -/
theorem witness_DeferredRunServesLatchedEdge_turns :
    (let s := { mk top1 top1 0#8 (lines false true true) with pend := lines true false true, turns := [.deferred .rd] }
     s.turns = [.deferred .rd] ∧ s.ie.get .rd = false ∧ s.pend.get .rd = true ∧ s.pend.get .wr = false) ∧
    (let s := { busy2 with pend := lines false false true }
     s.turns = [] ∧ s.ie.get .mp = true ∧ s.pend.get .mp = true) := by decide

/-- Every operation of the frame statements answers a next state somewhere. -/
theorem witness_Frames :
    ([.isEmpty .inbound, .isFull .outbound, .size .inbound, .push .outbound 1#8, .pushBlock .outbound [1#8, 2#8],
      .pop .inbound, .stwr 1#8, .irqenRd, .irqenWr, .irqenMp, .irqdisRd, .irqdisWr, .irqdisMp, .rdstb, .wrstb 1#8,
      .mpedge] : List Instr).all (fun i => (nextOf (exec i busy2)).isSome) = true ∧
    ([.clear .inbound, .clear .outbound, .pop .outbound, .rdstb, .wrstb 1#8, .mpedge] : List Instr).all
      (fun i => (nextOf (exec i (mk top1 top1 0#8 (lines false false false)))).isSome) = true := by decide

theorem witness_BusyMainLoopIssuesNothing :
    ({ busy2 with ml := .inOp (.pop1 .inbound) } : State).ml = .inOp (.pop1 .inbound) ∧
    (Instr.push .outbound 1#8).agent = .mainLoop := by decide

/-- The witness state of the statements that take the invariant: idle. -/
theorem busy2_inv : busy2.Inv := by
  refine ⟨by decide, ⟨?_, ?_, .inr ?_⟩, ⟨?_, ?_, .inr ?_⟩, trivial, fun h => absurd h (by decide)⟩ <;> decide

theorem witness_StepKeepsInvariant :
    busy2.Inv ∧ (nextOf (step { busy2 with turns := [.host ⟨0xC000#16, []⟩] })).isSome = true := ⟨busy2_inv, by decide⟩

theorem witness_IndicesFitTheirCells : busy2.Inv := busy2_inv

/-- A state that meets the invariant and whose next step faults: a media edge on a full Inbound. -/
def fullMedia : State := { mk full3 none0 0#8 on with turns := [.line ⟨0xE000#16, []⟩] }

theorem fullMedia_inv : fullMedia.Inv := by
  refine ⟨by decide, ⟨?_, ?_, .inr ?_⟩, ⟨?_, ?_, .inr ?_⟩, trivial, fun h => absurd h (by decide)⟩ <;> decide

theorem witness_OnlyTwoFaultsCanArise : fullMedia.Inv ∧ faultOf (step fullMedia) = some .hotplugPushOnFull :=
  ⟨fullMedia_inv, by decide⟩

/-- A push that fits, a block that fits exactly, a pop. -/
theorem witness_AdmittedOperationCompletes :
    busy2.Inv ∧ busy2.ml = .idle ∧
    ([.push .outbound 1#8, .pushBlock .outbound [1#8, 2#8], .pop .inbound, .isEmpty .outbound, .isFull .inbound, .size .inbound,
      .stwr 1#8, .irqenRd, .irqenWr, .irqenMp, .irqdisRd, .irqdisWr, .irqdisMp] : List Instr).all
      (fun i => keepsRules i busy2 && completesNow i busy2) = true := ⟨busy2_inv, by decide, by decide⟩

/-- CLEAR and POP OUT need their sources masked. -/
theorem witness_AdmittedOperationCompletes_masked :
    let s := mk top1 top1 0#8 (lines false false false)
    s.ml = .idle ∧ ([.clear .inbound, .clear .outbound, .pop .outbound] : List Instr).all
      (fun i => keepsRules i s && completesNow i s) = true := by decide

theorem witness_HandlersNeverWait :
    busy2.Inv ∧ (busy2.ie.mp = true → busy2.full .inbound = false) := ⟨busy2_inv, by decide⟩

theorem witness_StepKeepsParameters : (nextOf (step busy2)).isSome = true := by decide

/-- A step that changes SR by each of its writers: a host write, a deferred one, STWR. -/
theorem witness_StatusRegisterWriters :
    ((nextOf (step { mk full3 none0 0#8 on with turns := [.host ⟨0xD001#16, []⟩] })).map (·.sr) = some 0xE1#8) ∧
    ((nextOf (step { mk full3 none0 0#8 on with pend := lines false true false })).map (·.sr) = some 0xE1#8) ∧
    ((nextOf (step { busy2 with turns := [.mainLoop], prog := [⟨0x8085#16, []⟩] })).map (·.sr) = some 0x85#8) := by decide

/-- Steps that set an enable bit and that clear one, by IRQDIS and by the media handler. -/
theorem witness_EnableBitWriters :
    ((nextOf (step { mk none0 none0 0#8 (lines false true true) with turns := [.mainLoop], prog := [⟨0x9000#16, []⟩] })).map
      (·.ie.rd) = some true) ∧
    ((nextOf (step { busy2 with turns := [.mainLoop], prog := [⟨0xA200#16, []⟩] })).map (·.ie.mp) = some false) ∧
    ((nextOf (step { busy2 with turns := [.line ⟨0xE000#16, []⟩] })).map (·.ie.mp) = some false) := by decide

/-- Next steps by each kind of turn outside the main loop, the block's own on an empty schedule last. -/
theorem witness_OutsideTurns :
    busy2.Inv ∧
    ([{ busy2 with turns := [.host ⟨0xD001#16, []⟩] }, { busy2 with turns := [.line ⟨0xE000#16, []⟩] },
      { busy2 with turns := [.deferred .wr], pend := on }, { busy2 with pend := on }] : List State).all
      (fun s => !s.dueTurn.isMainLoop && (nextOf (step s)).isSome) = true := ⟨busy2_inv, by decide⟩

/-- A masked source of each kind while the other two are enabled, and each source enabled while the other two are masked. -/
theorem witness_MaskedSourceTouchesNothing :
    ([(.rd, ⟨0xC000#16, []⟩), (.wr, ⟨0xD001#16, []⟩)] : List (Source × Desc)).all (fun p =>
      let s : State := { mk top1 top1 0#8 (on.set p.1 false) with turns := [.host p.2] }
      let u : State := { mk top1 top1 0#8 (Lines.zero.set p.1 true) with turns := [.host p.2] }
      decide (s.dueTurn.source = some p.1) && !s.ie.get p.1 && (nextOf (step s)).isSome &&
        decide (u.dueTurn.source = some p.1) && (nextOf (step u)).isSome) = true ∧
    (let s := { mk top1 top1 0#8 (on.set .mp false) with turns := [.line ⟨0xE000#16, []⟩] }
     s.dueTurn.source = some .mp ∧ s.ie.get .mp = false ∧ (nextOf (step s)).isSome = true) ∧
    (let s := { mk top1 top1 0#8 (Lines.zero.set .mp true) with pend := on }
     s.dueTurn.source = some .mp ∧ (nextOf (step s)).isSome = true) := by decide

/-- The top index wraps; the largest advance; the smallest capacity. -/
theorem witness_IndexArithmeticWraps :
    3 ≤ busy2.cap .inbound ∧ busy2.nextIdx .inbound 3 = 0 ∧ busy2.advIdx .inbound 3 3 = 2 := by decide

theorem witness_OccupancyLaws :
    (busy2.head .inbound < busy2.len .inbound ∧ busy2.tail .inbound < busy2.len .inbound) ∧ 1 ≤ busy2.cap .inbound ∧
    busy2.full .inbound = false ∧ busy2.empty .inbound = false ∧ 2 ≤ busy2.free .inbound := by decide

theorem witness_StepKeepsQueueOrder :
    busy2.Inv ∧ (nextOf (step { busy2 with turns := [.host ⟨0xC000#16, []⟩] })).map (fun t => (busy2.queue .outbound, t.queue .outbound)) =
      some ([some 9#8], []) := ⟨busy2_inv, by decide⟩

/-- A block that wraps and fills the channel. -/
theorem witness_BlockPushEqualsPushes :
    busy2.Inv ∧ busy2.ml = .idle ∧ [1#8, 2#8].length ≤ busy2.free .outbound := ⟨busy2_inv, by decide, by decide⟩

/-- An empty Outbound that starts at the top index. -/
def emptyTop : State := mk full3 (ch 3 3 []) 0#8 on

theorem emptyTop_inv : emptyTop.Inv := by
  refine ⟨by decide, ⟨?_, ?_, .inr ?_⟩, ⟨?_, ?_, .inr ?_⟩, trivial, fun h => absurd h (by decide)⟩ <;> decide

theorem witness_CapacityLaw :
    emptyTop.Inv ∧ emptyTop.ml = .idle ∧ emptyTop.empty .outbound = true ∧ [1#8, 2#8, 3#8].length = emptyTop.cap .outbound ∧
    emptyTop.popAdmitted .inbound = true ∧ emptyTop.full .inbound = true :=
  ⟨emptyTop_inv, by decide, by decide, by decide, by decide, by decide⟩

/-- Idle, about to issue a block that wraps and fills Outbound. -/
def aboutToPushBlock : State := { busy2 with prog := [⟨0x3102#16, [1#8, 2#8]⟩] }

theorem witness_MicroStepsRefineOperation :
    aboutToPushBlock.ml = .idle ∧ aboutToPushBlock.prog = [⟨0x3102#16, [1#8, 2#8]⟩] ∧
    decode ⟨0x3102#16, [1#8, 2#8]⟩ = .ok (.pushBlock .outbound [1#8, 2#8]) ∧
    (Instr.pushBlock .outbound [1#8, 2#8]).agent = .mainLoop ∧
    (nextOf (exec (.pushBlock .outbound [1#8, 2#8]) { aboutToPushBlock with prog := [] })).map (·.ml) = some .idle := by decide

/-- A hold of each kind: a full Outbound under a bypassing status, a block over the capacity, POP under mask on both channels. -/
theorem witness_HoldsThatNothingLifts :
    heldForGood (.push1 .outbound 1#8) { mk none0 full3 0x80#8 on with ml := .inOp (.push1 .outbound 1#8) } ∧
    heldForGood (.block1 .outbound [1#8, 2#8, 3#8, 4#8]) (mk none0 none0 0#8 on) ∧
    heldForGood (.pop1 .outbound) (mk none0 none0 0#8 (lines false true true)) ∧
    heldForGood (.pop1 .inbound) (mk none0 none0 0#8 (lines true false false)) ∧
    (nextOf (step { mk none0 full3 0x80#8 on with ml := .inOp (.push1 .outbound 1#8) })).isSome = true := by
  refine ⟨⟨rfl, by decide, .inr (by decide)⟩, ⟨rfl, .inl (by decide)⟩, by unfold heldForGood; decide,
    by unfold heldForGood; decide, by decide⟩

/-- A held PUSH before the host reads. -/
def pushHeld : State :=
  { mk none0 full3 0x7F#8 on with
    ml := .inOp (.push1 .outbound 4#8), turns := [.host (encode .rdstb), .mainLoop] }

theorem pushHeld_inv : pushHeld.Inv := by
  refine ⟨by decide, ⟨?_, ?_, .inr ?_⟩, ⟨?_, ?_, .inr ?_⟩, rfl, fun h => absurd h (by decide)⟩ <;> decide

/-- A held POP before the host writes. -/
def popHeld : State :=
  { mk (ch 3 3 []) none0 0x7F#8 on with
    ml := .inOp (.pop1 .inbound), turns := [.host (encode (.wrstb 5#8)), .mainLoop] }

theorem popHeld_inv : popHeld.Inv := by
  refine ⟨by decide, ⟨?_, ?_, .inr ?_⟩, ⟨?_, ?_, .inr ?_⟩, rfl, fun h => absurd h (by decide)⟩ <;> decide

theorem witness_HostLiftsHolds :
    (pushHeld.Inv ∧ pushHeld.ml = .inOp (.push1 .outbound 4#8) ∧
      pushHeld.turns = [.host (encode .rdstb), .mainLoop] ∧ pushHeld.full .outbound = true ∧ pushHeld.ie.rd = true ∧ pushHeld.sr.getLsbD 7 = false ∧
      pushHeld.slot .outbound (pushHeld.head .outbound) = some 1#8) ∧
    (popHeld.Inv ∧ popHeld.ml = .inOp (.pop1 .inbound) ∧
      popHeld.turns = [.host (encode (.wrstb 5#8)), .mainLoop] ∧ popHeld.empty .inbound = true ∧ popHeld.ie.wr = true) :=
  ⟨⟨pushHeld_inv, rfl, rfl, by decide, by decide, by decide, by decide⟩, ⟨popHeld_inv, rfl, rfl, by decide, by decide⟩⟩

/-- V90 before step 2 of the PUSH. -/
def beforeSlotWrite : State :=
  { mk none0 none0 0#8 on with
    ml := .inOp (.push2 .outbound 0x41#8), turns := [.micro, .host (encode .rdstb), .micro] }

theorem beforeSlotWrite_inv : beforeSlotWrite.Inv := by
  refine ⟨by decide, ⟨?_, ?_, .inr ?_⟩, ⟨?_, ?_, .inr ?_⟩, ⟨rfl, by decide⟩, fun h => absurd h (by decide)⟩ <;> decide

/-- V91 before step 2 of the POP. -/
def beforeSlotRead : State :=
  { mk full3 none0 0x80#8 on with
    ml := .inOp (.pop2 .inbound), turns := [.micro, .host (encode (.wrstb 9#8)), .micro] }

theorem beforeSlotRead_inv : beforeSlotRead.Inv := by
  refine ⟨by decide, ⟨?_, ?_, .inr ?_⟩, ⟨?_, ?_, .inr ?_⟩, ⟨rfl, by decide⟩, fun h => absurd h (by decide)⟩ <;> decide

theorem witness_HandlerSeesOnlyPublications :
    (beforeSlotWrite.Inv ∧ beforeSlotWrite.ml = .inOp (.push2 .outbound 0x41#8) ∧
      beforeSlotWrite.turns = [.micro, .host (encode .rdstb), .micro] ∧ beforeSlotWrite.empty .outbound = true ∧ beforeSlotWrite.ie.rd = true ∧
      beforeSlotWrite.sr.getLsbD 7 = false) ∧
    (beforeSlotRead.Inv ∧ beforeSlotRead.ml = .inOp (.pop2 .inbound) ∧
      beforeSlotRead.turns = [.micro, .host (encode (.wrstb 9#8)), .micro] ∧ beforeSlotRead.full .inbound = true ∧ beforeSlotRead.ie.wr = true ∧
      beforeSlotRead.slot .inbound (beforeSlotRead.head .inbound) = some 1#8) :=
  ⟨⟨beforeSlotWrite_inv, rfl, rfl, by decide, by decide, by decide⟩, ⟨beforeSlotRead_inv, rfl, rfl, by decide, by decide, by decide⟩⟩

theorem witness_SimultaneousEdgesHaveBothOrders :
    let s := mk full3 none0 0x80#8 on
    s.par.overrunTop ∧ s.ie.rd = true ∧ s.ie.wr = true ∧ s.full .inbound = true ∧ s.sr.getLsbD 7 = true := by decide

theorem witness_CommandStartIsPolled : busy2.par.wf ∧ busy2.ml = .idle ∧ busy2.ie.rd = true := by decide

theorem witness_ClearSafeSequences :
    busy2.ml = .idle ∧ busy2.ie.mp = true ∧ (mk top1 top1 0#8 (lines true true false)).ie.mp = false := by decide

end Sys2Proof.Tests
end

/-!
SUPPORT. What the model's shared runs and turns can do, said once: the one cell a micro-step writes, the induction over an
uninterrupted run, and one inversion lemma per issue, handler answer and turn.
-/

namespace Sys2Proof.Machine

/-! ### The micro-steps -/

/-- The state a micro-step leaves, where it neither holds nor faults. -/
def Progress.state : Progress → Option State
  | .hold => none
  | .go _ t => some t
  | .done _ t => some t
  | .fault _ => none

/-- At most one cell of the block is written: a slot, an index cell, SR or an enable bit. -/
inductive OneWrite (s : State) : State → Prop where
  | nothing : OneWrite s s
  | slot (c : Channel) (i : Nat) (b : Byte) : OneWrite s (s.withSlot c i b)
  | head (c : Channel) (i : Nat) : OneWrite s (s.setHead c i)
  | tail (c : Channel) (i : Nat) : OneWrite s (s.setTail c i)
  | sr (v : Byte) : OneWrite s (s.setSr v)
  | ie (src : Source) (b : Bool) : OneWrite s (s.setIe src b)

theorem OneWrite.par_eq {s t : State} (h : OneWrite s t) : t.par = s.par := by cases h <;> rfl

theorem OneWrite.of_slotWrite {c : Channel} {i : Nat} {b : Byte} {s t : State} (h : slotWrite c i b s = .ok t) :
    OneWrite s t := by
  obtain ⟨-, rfl⟩ := slotWrite_ok.1 h
  exact .slot c i b

/-- A micro-step that only tests whether to hold writes nothing. -/
theorem OneWrite.of_hold_or_go {p : Prop} [Decidable p] {m : Micro} {s t : State}
    (h : (if p then Progress.hold else .go m s).state = some t) : OneWrite s t := by
  split at h <;> cases h
  exact .nothing

theorem microPush2_oneWrite {c : Channel} {b : Byte} {s t : State} (h : (microPush2 c b s).state = some t) :
    OneWrite s t := by
  unfold microPush2 at h
  split at h <;> cases h
  exact .of_slotWrite ‹_›

theorem microPop2_oneWrite {c : Channel} {s t : State} (h : (microPop2 c s).state = some t) : OneWrite s t := by
  unfold microPop2 at h
  split at h <;> cases h
  exact .nothing

/-- PUSHBLOCK 2 and 3: an earlier publication, a slot write, or the publication of the whole block (R102). -/
theorem microBlock2_oneWrite {choice : Nat} {c : Channel} {bytes : List Byte} {tl written published : Nat} {s t : State}
    (h : (microBlock2 choice c bytes tl written published s).state = some t) : OneWrite s t := by
  unfold microBlock2 at h
  split at h
  · cases h
    exact .tail c _
  · split at h
    · split at h <;> cases h
      exact .of_slotWrite ‹_›
    · cases h
      exact .tail c _

/-- Everything a micro-step can do to the cells of the block: at most one write (R100 to R106, R120 to R122). -/
theorem micro_oneWrite {choice : Nat} {m : Micro} {s t : State} (h : (micro choice m s).state = some t) : OneWrite s t := by
  cases m with
  | push1 c b => exact .of_hold_or_go h
  | push2 c b => exact microPush2_oneWrite h
  | push3 c b => cases h; exact .tail c _
  | pop1 c => exact .of_hold_or_go h
  | pop2 c => exact microPop2_oneWrite h
  | pop3 c v => cases h; exact .head c _
  | block1 c bytes => exact .of_hold_or_go h
  | block2 c bytes tl written published => exact microBlock2_oneWrite h
  | query1 q c =>
    simp only [micro, microQuery1] at h
    split at h <;> cases h <;> exact .nothing
  | queryTail q c hd => cases h; exact .nothing
  | queryHead q c tl => cases h; exact .nothing
  | clear1 c => cases h; exact .head c 0
  | clear2 c => cases h; exact .tail c 0
  | stwr1 v => cases h; exact .sr v
  | irqen1 src => cases h; exact .ie src true
  | irqdis1 src => cases h; exact .ie src false

/-- The induction over an uninterrupted run: what every micro-step that goes on keeps (`P`) gives `Q` of the state the run ends in,
by a hold, by its completion, or at the end of its fuel. -/
theorem runMicros_induction {P : Micro → State → Prop} {Q : State → Prop}
    (hold : ∀ m s, P m s → Q (s.setMl (.inOp m)))
    (go : ∀ m s m' t, P m s → micro 0 m s = .go m' t → P m' t)
    (done : ∀ m s res t, P m s → micro 0 m s = .done res t → Q (complete m res t))
    {fuel : Nat} {m : Micro} {s t : State} (h0 : P m s) (h : runMicros fuel m s = .next t) : Q t := by
  induction fuel generalizing m s with
  | zero =>
    obtain ⟨-, rfl⟩ | ⟨m', u, hp, rfl⟩ | ⟨res, u, hp, rfl⟩ := settle_next.1 h
    · exact hold m s h0
    · exact hold m' u (go m s m' u h0 hp)
    · exact done m s res u h0 hp
  | succ fuel ih =>
    simp only [runMicros] at h
    split at h
    next m' u hp => exact ih (go m s m' u h0 hp) h
    next hp => cases h; exact hold m s h0
    next res u hp => cases h; exact done m s res u h0 hp
    next f hp => cases h

/-! ### The issue of an operation and its run -/

/-- A main-loop operation is issued by its own admission test and run from its first micro-step (R88, R106, R107). -/
theorem exec_mainLoop {i : Instr} (ha : i.agent = .mainLoop) (s : State) : exec i s = issueAndRun (admissionOf i s) s := by
  cases i with
  | rdstb | wrstb _ | mpedge => cases ha
  | _ => rfl

/-- Everything an issue that runs its operation can do when it answers a next state. -/
theorem issueAndRun_next {a : Admission} {s t : State} :
    issueAndRun a s = .next t ↔
      ((∃ m, s.ml = .inOp m) ∧ t = s) ∨ (s.ml = .idle ∧ ∃ m, a = .admitted m ∧ runFrom m s = .next t) := by
  unfold issueAndRun
  cases s.ml <;> cases a <;> simp [eq_comm]

/-- Everything an issue alone can do when it answers a next state. -/
theorem issueOnly_next {a : Admission} {s t : State} :
    issueOnly a s = .next t ↔ ∃ m, a = .admitted m ∧ t = s.setMl (.inOp m) := by
  cases a <;> simp [issueOnly, eq_comm]

/-- A descriptor that decodes to an operation of the agent who issues it runs that operation (R86, R87). -/
theorem issueBy_of_decode {a : Agent} {d : Desc} {i : Instr} (hd : decode d = .ok i) (ha : i.agent = a)
    (run : Instr → Host.Outcome State Fault Refusal) : issueBy a d run = run i := by
  simp [issueBy, hd, ha]

/-! ### The turns -/

/-- A step takes the head of the schedule (log 7). -/
theorem step_of_turns {s : State} {turn : Turn} {ts : List Turn} (h : s.turns = turn :: ts) :
    step s = takeTurn turn { s with turns := ts } := by
  rw [step_eq_takeTurn, State.dueTurn_cons h, h, List.tail_cons]

/-- An idle main loop with a descriptor to issue issues it (R88). -/
theorem mainLoopTurn_issue {s : State} {d : Desc} {ps : List Desc} (hml : s.ml = .idle) (hprog : s.prog = d :: ps) :
    mainLoopTurn s = issueBy .mainLoop d (fun i => exec i { s with prog := ps }) := by
  simp [mainLoopTurn, hml, hprog]

/-- Everything the main loop's uninterrupted turn can do when it answers a next state: it runs the rest of its operation, has
nothing to issue, or issues and runs its next operation. -/
theorem mainLoopTurn_next {s t : State} (h : mainLoopTurn s = .next t) :
    (∃ m, s.ml = .inOp m ∧ runFrom m s = .next t) ∨ (s.ml = .idle ∧ s.prog = [] ∧ t = s) ∨
    (s.ml = .idle ∧ ∃ d ps i, s.prog = d :: ps ∧ decode d = .ok i ∧ i.agent = .mainLoop ∧
      exec i { s with prog := ps } = .next t) := by
  unfold mainLoopTurn at h
  split at h
  next m hml => exact .inl ⟨m, hml, h⟩
  next hml =>
    split at h
    next hprog =>
      cases h
      exact .inr (.inl ⟨hml, hprog, rfl⟩)
    next d ps hprog =>
      obtain ⟨i, hd, ha, hrun⟩ := issueBy_next.1 h
      exact .inr (.inr ⟨hml, d, ps, i, hprog, hd, ha, hrun⟩)

/-- Everything the main loop's micro turn can do when it answers a next state: it does one micro-step, has nothing to issue, or
issues its next operation. -/
theorem microTurn_next {s t : State} (h : microTurn s = .next t) :
    (∃ m, s.ml = .inOp m ∧ oneMicro m s = .next t) ∨ (s.ml = .idle ∧ s.prog = [] ∧ t = s) ∨
    (s.ml = .idle ∧ ∃ d ps i m, s.prog = d :: ps ∧ decode d = .ok i ∧ i.agent = .mainLoop ∧ admissionOf i s = .admitted m ∧
      t = ({ s with prog := ps } : State).setMl (.inOp m)) := by
  unfold microTurn at h
  split at h
  next m hml => exact .inl ⟨m, hml, h⟩
  next hml =>
    split at h
    next hprog =>
      cases h
      exact .inr (.inl ⟨hml, hprog, rfl⟩)
    next d ps hprog =>
      obtain ⟨i, hd, ha, hrun⟩ := issueBy_next.1 h
      obtain ⟨m, hm, rfl⟩ := issueOnly_next.1 hrun
      exact .inr (.inr ⟨hml, d, ps, i, m, hprog, hd, ha, hm, rfl⟩)

/-! ### The answers of the handlers -/

theorem answerRead_ok {s t : State} {o : Obs} : answerRead s = .ok (o, t) ↔ ∃ v, o = .read v ∧ readHandler s = .ok (v, t) := by
  unfold answerRead
  cases readHandler s with
  | ok p => simp [Prod.ext_iff, eq_comm]
  | error f => simp

theorem answerWrite_ok {b : Byte} {s t : State} {o : Obs} :
    answerWrite b s = .ok (o, t) ↔ o = .write b ∧ writeHandler b s = .ok t := by
  unfold answerWrite
  cases writeHandler b s <;> simp [eq_comm]

theorem answerMedia_ok {s t : State} {o : Obs} : answerMedia s = .ok (o, t) ↔ o = .media ∧ mediaHandler s = .ok t := by
  unfold answerMedia
  cases mediaHandler s <;> simp [eq_comm]

/-! ### A step runs the decoded operation -/

/-- Settles O6: the due turn is the head of the schedule, and each agent's turn is `issueBy`, which runs a decoded operation. -/
theorem stepRunsDecodedOperation : Obligations.StepRunsDecodedOperation := by
  intro s d i ts hd
  refine ⟨?_, ?_, ?_⟩
  · intro ps ha hturns hml hprog
    calc step s = mainLoopTurn { s with turns := ts } := step_of_turns hturns
      _ = _ := mainLoopTurn_issue hml hprog
      _ = _ := issueBy_of_decode hd ha _
  · intro ha hturns
    exact (step_of_turns hturns).trans (issueBy_of_decode hd ha _)
  · intro ha hturns
    exact (step_of_turns hturns).trans (issueBy_of_decode hd ha _)

/-! ### No step changes the parameters -/

theorem micro_par {choice : Nat} {m : Micro} {s t : State} (h : (micro choice m s).state = some t) : t.par = s.par :=
  (micro_oneWrite h).par_eq

theorem oneMicro_par {m : Micro} {s t : State} (h : oneMicro m s = .next t) : t.par = s.par := by
  obtain ⟨-, rfl⟩ | ⟨m', u, hp, rfl⟩ | ⟨res, u, hp, rfl⟩ := settle_next.1 h
  · rfl
  · exact (micro_par (congrArg Progress.state hp) :)
  · exact (micro_par (congrArg Progress.state hp) :)

theorem runFrom_par {m : Micro} {s t : State} (h : runFrom m s = .next t) : t.par = s.par :=
  runMicros_induction (P := fun _ u => u.par = s.par) (Q := fun u => u.par = s.par)
    (hold := fun _ _ hu => hu)
    (go := fun _ _ _ _ hu hp => (micro_par (congrArg Progress.state hp)).trans hu)
    (done := fun _ _ _ _ hu hp => (micro_par (congrArg Progress.state hp)).trans hu)
    rfl h

theorem readHandler_par {s t : State} {v : Byte} (h : readHandler s = .ok (v, t)) : t.par = s.par :=
  (congrArg State.par (readHandler_frame h) :)

theorem writeHandler_par {s t : State} {b : Byte} (h : writeHandler b s = .ok t) : t.par = s.par := by
  obtain ⟨-, ht⟩ | ht := writeHandler_frame h
  · exact (congrArg State.par ht :)
  · exact (congrArg State.par ht :)

theorem mediaHandler_par {s t : State} (h : mediaHandler s = .ok t) : t.par = s.par :=
  (congrArg State.par (mediaHandler_frame h) :)

/-- An edge keeps the parameters when its handler does: the masked edge writes PEND, the draw counter and the trace only. -/
theorem edge_par {src : Source} {handler : State → Except Fault (Obs × State)} {masked : State → Obs} {s t : State}
    (handler_par : ∀ o u, handler s = .ok (o, u) → u.par = s.par) (h : edge src handler masked s = .next t) :
    t.par = s.par := by
  obtain ⟨-, o, u, hu, rfl⟩ | ⟨-, rfl⟩ := edge_next.1 h
  · exact handler_par o u hu
  · rfl

theorem execRdstb_par {s t : State} (h : execRdstb s = .next t) : t.par = s.par := by
  refine edge_par (fun o u hu => ?_) h
  obtain ⟨v, -, hv⟩ := answerRead_ok.1 hu
  exact readHandler_par hv

theorem execWrstb_par {b : Byte} {s t : State} (h : execWrstb b s = .next t) : t.par = s.par :=
  edge_par (fun _ _ hu => writeHandler_par (answerWrite_ok.1 hu).2) h

theorem execMpedge_par {s t : State} (h : execMpedge s = .next t) : t.par = s.par :=
  edge_par (fun _ _ hu => mediaHandler_par (answerMedia_ok.1 hu).2) h

theorem exec_par {i : Instr} {s t : State} (h : exec i s = .next t) : t.par = s.par := by
  cases ha : i.agent with
  | mainLoop =>
    rw [exec_mainLoop ha] at h
    obtain ⟨-, rfl⟩ | ⟨-, m, -, hrun⟩ := issueAndRun_next.1 h
    · rfl
    · exact runFrom_par hrun
  | host =>
    cases i with
    | rdstb => exact execRdstb_par h
    | wrstb b => exact execWrstb_par h
    | _ => cases ha
  | line =>
    cases i with
    | mpedge => exact execMpedge_par h
    | _ => cases ha

theorem deferredHandler_par {src : Source} {s t : State} (h : deferredHandler src s = .ok t) : t.par = s.par := by
  cases src with
  | rd =>
    simp only [deferredHandler] at h
    split at h <;> cases h
    exact readHandler_par ‹_›
  | wr => exact writeHandler_par (s := s.drawn) h
  | mp => exact mediaHandler_par h

theorem takeTurn_par {turn : Turn} {s t : State} (h : takeTurn turn s = .next t) : t.par = s.par := by
  cases turn with
  | mainLoop =>
    obtain ⟨m, -, hrun⟩ | ⟨-, -, rfl⟩ | ⟨-, d, ps, i, -, -, -, hrun⟩ := mainLoopTurn_next h
    · exact runFrom_par hrun
    · rfl
    · exact (exec_par hrun :)
  | micro =>
    obtain ⟨m, -, hm⟩ | ⟨-, -, rfl⟩ | ⟨-, d, ps, i, m, -, -, -, -, rfl⟩ := microTurn_next h
    · exact oneMicro_par hm
    · rfl
    · rfl
  | host d | line d =>
    obtain ⟨i, -, -, hrun⟩ := issueBy_next.1 h
    exact exec_par hrun
  | deferred src =>
    obtain ⟨-, hrun⟩ | ⟨-, rfl⟩ := deferredRun_next.1 h
    · exact (deferredHandler_par hrun :)
    · rfl

/-- Settles O41: a step is one turn, and no micro-step, issue or handler writes the parameters. -/
theorem stepKeepsParameters : Obligations.StepKeepsParameters :=
  fun s _ h => (takeTurn_par ((step_eq_takeTurn s).symm.trans h) :)

end Sys2Proof.Machine

/-!
SUPPORT. The contents of a channel as a queue (10_state.md R23, R24): where its slots lie, and what each write to its cells
does to them.
-/

namespace Sys2Proof.Machine

/-! ### Positions in a channel -/

theorem State.advIdx_zero {s : State} {c : Channel} {i : Nat} (hi : i < s.len c) : s.advIdx c i 0 = i :=
  Nat.mod_eq_of_lt hi

theorem State.advIdx_advIdx (s : State) (c : Channel) (i a b : Nat) :
    s.advIdx c (s.advIdx c i a) b = s.advIdx c i (a + b) := by
  simp [State.advIdx, Nat.add_assoc]

/-- Fewer than `M_c` steps from one index lead to different indices. -/
theorem State.advIdx_inj {s : State} {c : Channel} {i a b : Nat} (ha : a < s.len c) (hb : b < s.len c) :
    s.advIdx c i a = s.advIdx c i b ↔ a = b :=
  ⟨fun h => (Nat.ModEq.add_left_cancel' i h).eq_of_lt_of_lt ha hb, fun h => by rw [h]⟩

/-- `tail` lies `size` steps after `head` (R24). -/
theorem State.tail_eq_advIdx_size {s : State} {c : Channel} (h : s.indicesOk c) :
    s.tail c = s.advIdx c (s.head c) (s.size c) := by
  obtain ⟨hh, ht⟩ := h
  show _ = (s.head c + distance (s.len c) (s.head c) (s.tail c)) % s.len c
  rcases Nat.lt_or_ge (s.tail c) (s.head c) with hlt | hle
  · rw [distance_of_gt hh hlt, show s.head c + (s.tail c + s.len c - s.head c) = s.tail c + s.len c by omega,
      Nat.add_mod_right, Nat.mod_eq_of_lt ht]
  · rw [distance_of_le ht hle, Nat.add_sub_cancel' hle, Nat.mod_eq_of_lt ht]

/-- The only number of steps below `M_c` from `head` to `tail` is the size. -/
theorem State.size_eq_of_tail {s : State} {c : Channel} {n : Nat} (h : s.indicesOk c) (hn : n < s.len c)
    (ht : s.tail c = s.advIdx c (s.head c) n) : s.size c = n :=
  (State.advIdx_inj (s.size_lt c) hn).1 ((State.tail_eq_advIdx_size h).symm.trans ht)

theorem State.advIdx_tail {s : State} {c : Channel} (h : s.indicesOk c) (k : Nat) :
    s.advIdx c (s.tail c) k = s.advIdx c (s.head c) (s.size c + k) := by
  rw [State.tail_eq_advIdx_size h, State.advIdx_advIdx]

theorem State.empty_iff_size {s : State} {c : Channel} (h : s.indicesOk c) : s.empty c = true ↔ s.size c = 0 := by
  have ht := State.tail_eq_advIdx_size h
  calc s.empty c = true ↔ s.advIdx c (s.head c) 0 = s.advIdx c (s.head c) (s.size c) := by
        rw [← ht, State.advIdx_zero h.1]; exact beq_iff_eq
    _ ↔ s.size c = 0 := (State.advIdx_inj (s.len_pos c) (s.size_lt c)).trans eq_comm

theorem State.full_iff_size {s : State} {c : Channel} (h : s.indicesOk c) : s.full c = true ↔ s.size c = s.cap c := by
  have hlen : s.len c = s.cap c + 1 := rfl
  have hlt := s.size_lt c
  have hfull : s.full c = true ↔ s.advIdx c (s.head c) (s.size c + 1) = s.head c := by
    rw [← State.advIdx_tail h]; exact beq_iff_eq
  rw [hfull]
  constructor
  · intro heq
    by_contra hne
    have h0 := (State.advIdx_inj (by omega) (s.len_pos c)).1 (heq.trans (State.advIdx_zero h.1).symm)
    omega
  · intro heq
    rw [heq, ← hlen]
    exact (Nat.add_mod_right _ _).trans (Nat.mod_eq_of_lt h.1)

theorem State.size_pos_of_not_empty {s : State} {c : Channel} (h : s.indicesOk c) (he : s.empty c = false) : 0 < s.size c :=
  Nat.pos_of_ne_zero fun h0 => by simp [(State.empty_iff_size h).2 h0] at he

theorem State.size_lt_cap_of_not_full {s : State} {c : Channel} (h : s.indicesOk c) (hf : s.full c = false) :
    s.size c < s.cap c :=
  Nat.lt_of_le_of_ne (s.size_le_cap c) fun h0 => by simp [(State.full_iff_size h).2 h0] at hf

theorem State.not_empty_of_size_pos {s : State} {c : Channel} (h : s.indicesOk c) (hs : 0 < s.size c) : s.empty c = false :=
  Bool.eq_false_iff.2 fun he => by have := (State.empty_iff_size h).1 he; omega

theorem State.not_full_of_size_lt {s : State} {c : Channel} (h : s.indicesOk c) (hs : s.size c < s.cap c) : s.full c = false :=
  Bool.eq_false_iff.2 fun hf => by have := (State.full_iff_size h).1 hf; omega

/-! ### Publishing moves `tail`, dropping moves `head` -/

theorem State.indicesOk_setTail {s : State} {c : Channel} {i : Nat} (h : s.indicesOk c) (hi : i < s.len c) :
    (s.setTail c i).indicesOk c := by
  exact ⟨by simpa using h.1, by simpa using hi⟩

theorem State.indicesOk_setHead {s : State} {c : Channel} {i : Nat} (h : s.indicesOk c) (hi : i < s.len c) :
    (s.setHead c i).indicesOk c := by
  exact ⟨by simpa using hi, by simpa using h.2⟩

theorem State.size_setTail_advIdx {s : State} {c : Channel} {n : Nat} (h : s.indicesOk c) (hn : s.size c + n ≤ s.cap c) :
    (s.setTail c (s.advIdx c (s.tail c) n)).size c = s.size c + n := by
  refine State.size_eq_of_tail (State.indicesOk_setTail h (s.advIdx_lt c _ _)) (Nat.lt_succ_of_le hn) ?_
  simpa using State.advIdx_tail h n

theorem State.size_setHead_nextIdx {s : State} {c : Channel} (h : s.indicesOk c) (he : s.empty c = false) :
    (s.setHead c (s.nextIdx c (s.head c))).size c + 1 = s.size c := by
  have hpos := State.size_pos_of_not_empty h he
  have hlt := s.size_lt c
  have hsize : (s.setHead c (s.nextIdx c (s.head c))).size c = s.size c - 1 := by
    refine State.size_eq_of_tail (State.indicesOk_setHead h (s.nextIdx_lt c _)) (Nat.lt_of_le_of_lt (Nat.sub_le _ _) hlt) ?_
    rw [State.setHead_tail, State.setHead_head, State.setHead_advIdx]
    calc s.tail c = s.advIdx c (s.head c) (1 + (s.size c - 1)) := by
          rw [Nat.add_sub_cancel' hpos]; exact State.tail_eq_advIdx_size h
      _ = s.advIdx c (s.nextIdx c (s.head c)) (s.size c - 1) := (s.advIdx_advIdx c _ 1 _).symm
  omega

/-! ### What each write does to the queue -/

/-- Slot `i` holds no live byte of the channel. -/
def State.notLive (s : State) (c : Channel) (i : Nat) : Prop := ∀ k, k < s.size c → s.advIdx c (s.head c) k ≠ i

/-- The free slots, from `tail` on, hold no live byte (R24). -/
theorem State.notLive_advIdx_tail {s : State} {c : Channel} {j : Nat} (h : s.indicesOk c) (hj : s.size c + j ≤ s.cap c) :
    s.notLive c (s.advIdx c (s.tail c) j) := by
  intro k hk heq
  have hlen : s.len c = s.cap c + 1 := rfl
  rw [State.advIdx_tail h] at heq
  have := (State.advIdx_inj (by omega) (by omega)).1 heq
  omega

theorem State.notLive_tail {s : State} {c : Channel} (h : s.indicesOk c) : s.notLive c (s.tail c) := by
  simpa [State.advIdx_zero h.2] using State.notLive_advIdx_tail (j := 0) h (s.size_le_cap c)

@[simp] theorem State.withSlot_size (s : State) (c c' : Channel) (i : Nat) (b : Byte) :
    (s.withSlot c i b).size c' = s.size c' := by
  simp [State.size, State.sizeOfIdx]

@[simp] theorem State.withSlot_full (s : State) (c c' : Channel) (i : Nat) (b : Byte) :
    (s.withSlot c i b).full c' = s.full c' := by
  simp [State.full, State.fullOfIdx]

/-- A write to a slot that is not live leaves the live data alone. -/
theorem State.queue_withSlot {s : State} {c : Channel} {i : Nat} (h : s.notLive c i) (b : Byte) :
    (s.withSlot c i b).queue c = s.queue c := by
  simp only [State.queue, State.withSlot_size]
  refine List.map_congr_left fun k hk => ?_
  have hne := h k (List.mem_range.1 hk)
  simp [State.liveSlot, State.withSlot_slot_other s c b hne]

/-- Publishing `n` slots appends what they hold at the young end. -/
theorem State.queue_setTail {s : State} {c : Channel} {n : Nat} (h : s.indicesOk c) (hn : s.size c + n ≤ s.cap c) :
    (s.setTail c (s.advIdx c (s.tail c) n)).queue c =
      s.queue c ++ (List.range n).map (fun k => s.slot c (s.advIdx c (s.tail c) k)) := by
  have hslot : (s.setTail c (s.advIdx c (s.tail c) n)).liveSlot c = s.liveSlot c := by
    funext k
    simp [State.liveSlot]
  simp only [State.queue, State.size_setTail_advIdx h hn, hslot, List.range_add, List.map_append, List.map_map]
  simp [Function.comp_def, State.liveSlot, State.advIdx_tail h]

/-- Dropping takes the oldest byte off. -/
theorem State.queue_setHead {s : State} {c : Channel} (h : s.indicesOk c) (he : s.empty c = false) :
    s.queue c = s.slot c (s.head c) :: (s.setHead c (s.nextIdx c (s.head c))).queue c := by
  have hslot : ∀ k, s.liveSlot c (k + 1) = (s.setHead c (s.nextIdx c (s.head c))).liveSlot c k := by
    intro k
    have hadv : s.advIdx c (s.nextIdx c (s.head c)) k = s.advIdx c (s.head c) (k + 1) := by
      rw [Nat.add_comm k]; exact s.advIdx_advIdx c _ 1 k
    simp [State.liveSlot, hadv]
  simp only [State.queue, ← State.size_setHead_nextIdx h he, List.range_succ_eq_map, List.map_cons, List.map_map]
  rw [State.liveSlot, State.advIdx_zero h.1]
  exact congrArg _ (List.map_congr_left fun k _ => hslot k)

/-- Every live slot holds a byte exactly when the queue lists no empty slot (R38). -/
theorem State.liveWritten_iff_queue {s : State} {c : Channel} :
    s.liveWritten c ↔ ∀ x ∈ s.queue c, x.isSome = true := by
  simp [State.queue]

theorem State.slot_head_isSome {s : State} {c : Channel} (h : s.indicesOk c) (hw : s.liveWritten c) (he : s.empty c = false) :
    ∃ v, s.slot c (s.head c) = some v := by
  have h0 := hw 0 (State.size_pos_of_not_empty h he)
  rw [State.liveSlot, State.advIdx_zero h.1] at h0
  exact Option.isSome_iff_exists.1 h0

end Sys2Proof.Machine

/-!
SUPPORT. The writes that are sound (10_state.md R37, R38; 20_memory.md R60, R61): a write of the block together with the
condition under which its rule makes it, and that each of them keeps every channel well formed and in queue order.
-/

namespace Sys2Proof.Machine

/-- A write of a micro-step or a handler, but for CLEAR's two, with the condition that makes it sound. -/
inductive SoundWrite (s : State) : State → Prop where
  | nothing : SoundWrite s s
  /-- A slot that is not live takes a byte. -/
  | store (c : Channel) (i : Nat) (b : Byte) (hi : i < s.len c) (hdead : s.notLive c i) : SoundWrite s (s.withSlot c i b)
  /-- `n` free slots that hold bytes are published. -/
  | publish (c : Channel) (n : Nat) (f : Nat → Byte) (hroom : s.size c + n ≤ s.cap c)
      (hslot : ∀ k, k < n → s.slot c (s.advIdx c (s.tail c) k) = some (f k)) :
      SoundWrite s (s.setTail c (s.advIdx c (s.tail c) n))
  /-- The oldest byte is dropped. -/
  | drop (c : Channel) (he : s.empty c = false) : SoundWrite s (s.setHead c (s.nextIdx c (s.head c)))
  /-- A handler's store and publication, as one step. -/
  | push (c : Channel) (b : Byte) (hf : s.full c = false) :
      SoundWrite s ((s.withSlot c (s.tail c) b).setTail c (s.nextIdx c (s.tail c)))
  | sr (v : Byte) : SoundWrite s (s.setSr v)
  | ie (src : Source) (b : Bool) : SoundWrite s (s.setIe src b)

theorem SoundWrite.par_eq {s t : State} (h : SoundWrite s t) : t.par = s.par := by cases h <;> rfl

theorem SoundWrite.pend_eq {s t : State} (h : SoundWrite s t) : t.pend = s.pend := by cases h <;> rfl

theorem SoundWrite.ml_eq {s t : State} (h : SoundWrite s t) : t.ml = s.ml := by cases h <;> rfl

/-- Soundness does not depend on the main loop's control state. -/
theorem SoundWrite.setMl {s t : State} (h : SoundWrite s t) (m : MainLoop) : SoundWrite (s.setMl m) (t.setMl m) := by
  cases h with
  | nothing => exact .nothing
  | store c i b hi hdead => exact .store (s := s.setMl m) c i b hi hdead
  | publish c n f hroom hslot => exact .publish (s := s.setMl m) c n f hroom hslot
  | drop c he => exact .drop (s := s.setMl m) c he
  | push c b hf => exact .push (s := s.setMl m) c b hf
  | sr v => exact .sr (s := s.setMl m) v
  | ie src b => exact .ie (s := s.setMl m) src b

/-! ### One channel's part of a sound write -/

theorem State.cap_congr {s t : State} (hpar : t.par = s.par) (c : Channel) : t.cap c = s.cap c := by
  cases c <;> simp [State.cap, hpar]

theorem State.indicesOk_congr {s t : State} {c : Channel} (hpar : t.par = s.par) (hch : t.chan c = s.chan c) :
    t.indicesOk c ↔ s.indicesOk c := by
  simp only [State.indicesOk, State.head, State.tail, State.len, State.cap_congr hpar, hch]

theorem State.bufferOk_congr {s t : State} {c : Channel} (hpar : t.par = s.par) (hch : t.chan c = s.chan c) :
    t.bufferOk c ↔ s.bufferOk c := by
  simp only [State.bufferOk, State.len, State.cap_congr hpar, hch]

theorem State.queue_congr {s t : State} {c : Channel} (hpar : t.par = s.par) (hch : t.chan c = s.chan c) :
    t.queue c = s.queue c := by
  have hlive : t.liveSlot c = s.liveSlot c := by
    funext k
    simp only [State.liveSlot, State.slot, State.advIdx, State.head, State.len, State.cap_congr hpar, hch]
  simp only [State.queue, hlive, State.size, State.sizeOfIdx, State.head, State.tail, State.len, State.cap_congr hpar, hch]

/-- Everything a sound write can do to one channel: nothing, or one of the four that write to its cells. -/
theorem SoundWrite.chan_cases {s t : State} (h : SoundWrite s t) (c : Channel) :
    t.chan c = s.chan c ∨
    (∃ i b, i < s.len c ∧ s.notLive c i ∧ t = s.withSlot c i b) ∨
    (∃ (n : Nat) (f : Nat → Byte), s.size c + n ≤ s.cap c ∧
      (∀ k, k < n → s.slot c (s.advIdx c (s.tail c) k) = some (f k)) ∧ t = s.setTail c (s.advIdx c (s.tail c) n)) ∨
    (s.empty c = false ∧ t = s.setHead c (s.nextIdx c (s.head c))) ∨
    (s.full c = false ∧ ∃ b, t = (s.withSlot c (s.tail c) b).setTail c (s.nextIdx c (s.tail c))) := by
  cases h with
  | nothing | sr _ | ie _ _ => exact .inl rfl
  | store c' i b hi hdead =>
    by_cases hc : c = c'
    · subst hc; exact .inr (.inl ⟨i, b, hi, hdead, rfl⟩)
    · exact .inl (State.withChan_chan_other s _ hc)
  | publish c' n f hroom hslot =>
    by_cases hc : c = c'
    · subst hc; exact .inr (.inr (.inl ⟨n, f, hroom, hslot, rfl⟩))
    · exact .inl (State.withChan_chan_other s _ hc)
  | drop c' he =>
    by_cases hc : c = c'
    · subst hc; exact .inr (.inr (.inr (.inl ⟨he, rfl⟩)))
    · exact .inl (State.withChan_chan_other s _ hc)
  | push c' b hf =>
    by_cases hc : c = c'
    · subst hc; exact .inr (.inr (.inr (.inr ⟨hf, b, rfl⟩)))
    · exact .inl ((State.withChan_chan_other _ _ hc).trans (State.withChan_chan_other s _ hc))

theorem State.setTail_buf (s : State) (c : Channel) (i : Nat) : ((s.setTail c i).chan c).buf = (s.chan c).buf := by
  simp [State.setTail]

theorem State.setHead_buf (s : State) (c : Channel) (i : Nat) : ((s.setHead c i).chan c).buf = (s.chan c).buf := by
  simp [State.setHead]

theorem State.indicesOk_withSlot {s : State} {c : Channel} {i : Nat} {b : Byte} (h : s.indicesOk c) :
    (s.withSlot c i b).indicesOk c := by
  exact ⟨by simpa using h.1, by simpa using h.2⟩

theorem State.bufferOk_withSlot {s : State} {c : Channel} {i : Nat} {b : Byte} (h : s.bufferOk c) (hi : i < s.len c) :
    (s.withSlot c i b).bufferOk c := by
  rw [State.bufferOk, State.withSlot_buf]
  exact ⟨Memory.wf_write h.1 i b, Memory.lt_write h.2 hi⟩

theorem State.bufferOk_setTail {s : State} {c : Channel} {i : Nat} (h : s.bufferOk c) : (s.setTail c i).bufferOk c := by
  rw [State.bufferOk, State.setTail_buf]
  exact h

theorem State.bufferOk_setHead {s : State} {c : Channel} {i : Nat} (h : s.bufferOk c) : (s.setHead c i).bufferOk c := by
  rw [State.bufferOk, State.setHead_buf]
  exact h

theorem SoundWrite.indicesOk {s t : State} (h : SoundWrite s t) {c : Channel} (hs : s.indicesOk c) : t.indicesOk c := by
  obtain hch | ⟨i, b, -, -, rfl⟩ | ⟨n, f, -, -, rfl⟩ | ⟨-, rfl⟩ | ⟨-, b, rfl⟩ := h.chan_cases c
  · exact (State.indicesOk_congr h.par_eq hch).2 hs
  · exact State.indicesOk_withSlot hs
  · exact State.indicesOk_setTail hs (s.advIdx_lt c _ _)
  · exact State.indicesOk_setHead hs (s.nextIdx_lt c _)
  · exact State.indicesOk_setTail (State.indicesOk_withSlot hs) (s.nextIdx_lt c _)

theorem SoundWrite.bufferOk {s t : State} (h : SoundWrite s t) {c : Channel} (hi : s.indicesOk c) (hs : s.bufferOk c) :
    t.bufferOk c := by
  obtain hch | ⟨i, b, hlt, -, rfl⟩ | ⟨n, f, -, -, rfl⟩ | ⟨-, rfl⟩ | ⟨-, b, rfl⟩ := h.chan_cases c
  · exact (State.bufferOk_congr h.par_eq hch).2 hs
  · exact State.bufferOk_withSlot hs hlt
  · exact State.bufferOk_setTail hs
  · exact State.bufferOk_setHead hs
  · exact State.bufferOk_setTail (State.bufferOk_withSlot hs hi.2)

/-! ### The queue under a sound write -/

/-- A channel's live data stays, loses its oldest byte, or gains bytes at its young end (R24). -/
def QueueStep (c : Channel) (s t : State) : Prop :=
  t.queue c = s.queue c ∨ (∃ x, s.queue c = x :: t.queue c) ∨
    ∃ added : List Byte, t.queue c = s.queue c ++ added.map some

/-- A step of the queue keeps every live slot written. -/
theorem QueueStep.liveWritten {c : Channel} {s t : State} (h : QueueStep c s t) (hs : s.liveWritten c) : t.liveWritten c := by
  rw [State.liveWritten_iff_queue] at hs ⊢
  obtain heq | ⟨x, heq⟩ | ⟨added, heq⟩ := h
  · rwa [heq]
  · exact fun y hy => hs y (heq ▸ List.mem_cons_of_mem x hy)
  · intro y hy
    rcases List.mem_append.1 (heq ▸ hy) with hy | hy
    · exact hs y hy
    · obtain ⟨v, -, rfl⟩ := List.mem_map.1 hy
      rfl

/-- A store at `tail` and its publication append the byte (R60). -/
theorem State.queue_push {s : State} {c : Channel} (h : s.indicesOk c) (hf : s.full c = false) (b : Byte) :
    ((s.withSlot c (s.tail c) b).setTail c (s.nextIdx c (s.tail c))).queue c = s.queue c ++ [some b] := by
  have hroom := State.size_lt_cap_of_not_full h hf
  have hpub := State.queue_setTail (s := s.withSlot c (s.tail c) b) (n := 1) (State.indicesOk_withSlot h)
    (by simpa using hroom)
  show ((s.withSlot c (s.tail c) b).setTail c (s.advIdx c (s.tail c) 1)).queue c = _
  simpa [State.advIdx_zero h.2, State.queue_withSlot (State.notLive_tail h)] using hpub

theorem SoundWrite.queueStep {s t : State} (h : SoundWrite s t) {c : Channel} (hs : s.indicesOk c) : QueueStep c s t := by
  obtain hch | ⟨i, b, -, hdead, rfl⟩ | ⟨n, f, hroom, hslot, rfl⟩ | ⟨he, rfl⟩ | ⟨hf, b, rfl⟩ := h.chan_cases c
  · exact .inl (State.queue_congr h.par_eq hch)
  · exact .inl (State.queue_withSlot hdead b)
  · refine .inr (.inr ⟨(List.range n).map f, ?_⟩)
    rw [State.queue_setTail hs hroom, List.map_map]
    exact congrArg _ (List.map_congr_left fun k hk => hslot k (List.mem_range.1 hk))
  · exact .inr (.inl ⟨_, State.queue_setHead hs he⟩)
  · exact .inr (.inr ⟨[b], State.queue_push hs hf b⟩)

/-- A sound write keeps a channel as every reachable state has it (R37, R38). -/
theorem SoundWrite.chanOk {s t : State} (h : SoundWrite s t) {c : Channel} (hs : s.chanOk c) : t.chanOk c := by
  obtain ⟨hi, hb, hw⟩ := hs
  refine ⟨h.indicesOk hi, h.bufferOk hi hb, ?_⟩
  rw [h.ml_eq]
  exact hw.imp_right (h.queueStep hi).liveWritten

end Sys2Proof.Machine

/-!
SUPPORT. The invariant through the main loop's micro-steps (10_state.md R31, R37, R38): every micro-step but CLEAR's two makes
a sound write, reads only slots that hold a byte, and leaves what the next micro-step needs.
-/

namespace Sys2Proof.Machine

/-! ### The invariant and the main loop's control state -/

theorem State.inv_iff {s : State} : s.Inv ↔ s.par.wf ∧ (∀ c, s.chanOk c) ∧ s.mainLoopOk ∧ s.pendOk := by
  constructor
  · rintro ⟨hwf, hin, hout, hml, hpend⟩
    exact ⟨hwf, fun c => by cases c <;> assumption, hml, hpend⟩
  · rintro ⟨hwf, hch, hml, hpend⟩
    exact ⟨hwf, hch .inbound, hch .outbound, hml, hpend⟩

theorem State.Inv.indicesOk {s : State} (h : s.Inv) (c : Channel) : s.indicesOk c := ((State.inv_iff.1 h).2.1 c).1

theorem State.Inv.mainLoopOk {s : State} (h : s.Inv) : s.mainLoopOk := (State.inv_iff.1 h).2.2.1

/-- Inside an operation the next micro-step's condition holds. -/
theorem State.Inv.microOk_of_ml {s : State} (h : s.Inv) {m : Micro} (hml : s.ml = .inOp m) : microOk m s := by
  have hm := h.mainLoopOk
  rwa [State.mainLoopOk, hml] at hm

/-- Outside CLEAR's second micro-step every live slot holds a byte. -/
theorem State.Inv.liveWritten {s : State} (h : s.Inv) {c : Channel} (hml : s.ml ≠ .inOp (.clear2 c)) : s.liveWritten c :=
  ((State.inv_iff.1 h).2.1 c).2.2.resolve_left hml

/-- A sound write keeps the invariant where it keeps what the main loop relies on. -/
theorem SoundWrite.inv {s t : State} (h : SoundWrite s t) (hs : s.Inv) (hml : t.mainLoopOk) : t.Inv := by
  obtain ⟨hwf, hch, -, hpend⟩ := State.inv_iff.1 hs
  refine State.inv_iff.2 ⟨h.par_eq ▸ hwf, fun c => h.chanOk (hch c), hml, ?_⟩
  rw [State.pendOk, h.par_eq, h.pend_eq]
  exact hpend

/-- Inside an operation that is not in CLEAR's second micro-step the cells are as an idle main loop has them. -/
theorem State.Inv.setMl_idle {s : State} (h : s.Inv) (hml : ∀ c, s.ml ≠ .inOp (.clear2 c)) : (s.setMl .idle).Inv := by
  obtain ⟨hwf, hch, -, hpend⟩ := State.inv_iff.1 h
  refine State.inv_iff.2 ⟨hwf, fun c => ?_, trivial, hpend⟩
  obtain ⟨hi, hb, hw⟩ := hch c
  exact ⟨hi, hb, .inr (hw.resolve_left (hml c))⟩

/-- An idle main loop may be about to do any micro-step whose condition holds. -/
theorem State.Inv.setMl_inOp {s : State} (h : (s.setMl .idle).Inv) {m : Micro} (hm : microOk m s) : (s.setMl (.inOp m)).Inv := by
  obtain ⟨hwf, hch, -, hpend⟩ := State.inv_iff.1 h
  refine State.inv_iff.2 ⟨hwf, fun c => ?_, hm, hpend⟩
  obtain ⟨hi, hb, hw⟩ := hch c
  exact ⟨hi, hb, .inr (hw.resolve_left (by simp))⟩

/-! ### What a micro-step does, in the invariant's terms -/

/-- A micro-step's progress is sound: no fault, one sound write, and what the next micro-step relies on; where `choice` is 0,
so that no early publication is made, going on leaves every queue alone. -/
def Progress.Sound (choice : Nat) (s : State) : Progress → Prop
  | .hold => True
  | .go m t => SoundWrite s t ∧ microOk m t ∧ (choice = 0 → ∀ c, t.queue c = s.queue c)
  | .done _ t => SoundWrite s t
  | .fault _ => False

/-- Going on to a micro-step with nothing written. -/
theorem Progress.sound_go_same {choice : Nat} {m : Micro} {s : State} (hm : microOk m s) : (Progress.go m s).Sound choice s :=
  ⟨.nothing, hm, fun _ _ => rfl⟩

theorem microPush1_sound {choice : Nat} {c : Channel} {b : Byte} {s : State} (hm : microOk (.push1 c b) s) :
    (microPush1 c b s).Sound choice s := by
  unfold microPush1
  split
  next => trivial
  next hf => exact Progress.sound_go_same ⟨hm, by simpa using hf⟩

/-- A store to a slot that is not live leaves every queue alone. -/
theorem State.queue_withSlot_any {s : State} {c : Channel} {i : Nat} (h : s.notLive c i) (b : Byte) (c' : Channel) :
    (s.withSlot c i b).queue c' = s.queue c' := by
  by_cases hc : c' = c
  · subst hc
    exact State.queue_withSlot h b
  · exact State.queue_congr (State.withSlot_par s c i b) (State.withChan_chan_other s _ hc)

/-- Storing to a slot that is not live and going on. -/
theorem Progress.sound_go_store {choice : Nat} {m : Micro} {c : Channel} {i : Nat} {b : Byte} {s : State} (hi : i < s.len c)
    (hdead : s.notLive c i) (hm : microOk m (s.withSlot c i b)) : (Progress.go m (s.withSlot c i b)).Sound choice s :=
  ⟨.store c i b hi hdead, hm, fun _ => State.queue_withSlot_any hdead b⟩

theorem microPush2_sound {choice : Nat} {c : Channel} {b : Byte} {s : State} (hi : s.indicesOk c) (hm : microOk (.push2 c b) s) :
    (microPush2 c b s).Sound choice s := by
  obtain ⟨hc, hf⟩ := hm
  rw [microPush2, slotWrite_ok.2 ⟨hi.2, rfl⟩]
  refine Progress.sound_go_store hi.2 (State.notLive_tail hi) ⟨hc, ?_, ?_⟩
  · simpa using hf
  · simp

theorem microPush3_sound {choice : Nat} {c : Channel} {b : Byte} {s : State} (hi : s.indicesOk c) (hm : microOk (.push3 c b) s) :
    (microPush3 c s).Sound choice s := by
  obtain ⟨-, hf, hslot⟩ := hm
  refine .publish c 1 (fun _ => b) (State.size_lt_cap_of_not_full hi hf) fun k hk => ?_
  rw [Nat.lt_one_iff.1 hk, State.advIdx_zero hi.2, hslot]

theorem microPop1_sound {choice : Nat} {c : Channel} {s : State} (hm : microOk (.pop1 c) s) : (microPop1 c s).Sound choice s := by
  unfold microPop1
  split
  next => trivial
  next he => exact Progress.sound_go_same ⟨hm, by simpa using he⟩

theorem microPop2_sound {choice : Nat} {c : Channel} {s : State} (hi : s.indicesOk c) (hw : s.liveWritten c)
    (hm : microOk (.pop2 c) s) : (microPop2 c s).Sound choice s := by
  obtain ⟨ha, he⟩ := hm
  obtain ⟨v, hv⟩ := State.slot_head_isSome hi hw he
  rw [microPop2, slotRead_ok.2 ⟨hi.1, hv⟩]
  exact Progress.sound_go_same ⟨ha, he, hv⟩

/-- PUSHBLOCK's test: the whole block fits (R102). -/
theorem microBlock1_sound {choice : Nat} {c : Channel} {bytes : List Byte} {s : State} (hi : s.indicesOk c)
    (hm : microOk (.block1 c bytes) s) : (microBlock1 c bytes s).Sound choice s := by
  unfold microBlock1
  split
  next => trivial
  next hfree =>
    have hroom : s.size c + blockLength bytes ≤ s.cap c := by
      have := s.size_le_cap c
      unfold State.free at hfree
      omega
    exact Progress.sound_go_same ⟨hm, hi.2, Nat.le_refl 0, Nat.zero_le _, by omega, (State.advIdx_zero hi.2).symm, hroom,
      fun k hk => absurd hk (Nat.not_lt_zero k)⟩

section Block

variable {c : Channel} {bytes : List Byte} {t written published : Nat} {s : State}

/-- Byte `k` of a block goes `k - published` slots after `tail`. -/
theorem advIdx_of_blockOk (hm : microOk (.block2 c bytes t written published) s) {k : Nat} (hk : published ≤ k) :
    s.advIdx c t k = s.advIdx c (s.tail c) (k - published) := by
  obtain ⟨-, -, -, -, -, htail, -, -⟩ := hm
  rw [htail, State.advIdx_advIdx, Nat.add_sub_cancel' hk]

/-- Publishing a block up to byte `n`, all of it in its slots, is sound (R102). -/
theorem soundWrite_block (hm : microOk (.block2 c bytes t written published) s) {n : Nat} (hpub : published ≤ n)
    (hn : n ≤ written) : SoundWrite s (s.setTail c (s.advIdx c t n)) := by
  rw [advIdx_of_blockOk hm hpub]
  obtain ⟨-, -, -, hwl, -, htail, hroom, hslot⟩ := hm
  refine .publish c (n - published) (fun k => blockByte bytes (published + k)) (by omega) fun k hk => ?_
  rw [htail, State.advIdx_advIdx]
  exact hslot _ (by omega)

/-- An earlier publication leaves the rest of the block to be published (R102). -/
theorem microOk_block_publish (hi : s.indicesOk c) (hm : microOk (.block2 c bytes t written published) s) {n : Nat}
    (hpub : published ≤ n) (hn : n ≤ written) :
    microOk (.block2 c bytes t written n) (s.setTail c (s.advIdx c t n)) := by
  have hadv := advIdx_of_blockOk hm hpub
  obtain ⟨hc, ht, -, hwl, hlen, -, hroom, hslot⟩ := hm
  have hsize : (s.setTail c (s.advIdx c t n)).size c = s.size c + (n - published) := by
    rw [hadv]
    exact State.size_setTail_advIdx hi (by omega)
  refine ⟨hc, ht, hn, hwl, hlen, by simp, ?_, by simpa using hslot⟩
  rw [hsize, State.setTail_cap]
  omega

/-- The slot of the next byte of a block is not live: only published bytes are. -/
theorem notLive_of_blockOk (hi : s.indicesOk c) (hm : microOk (.block2 c bytes t written published) s)
    (hw : written < blockLength bytes) : s.notLive c (s.advIdx c t written) := by
  have ⟨_, _, hpw, _, _, _, hroom, _⟩ := hm
  rw [advIdx_of_blockOk hm hpw]
  exact State.notLive_advIdx_tail hi (by omega)

/-- The next byte of a block goes to a slot of its own, so that the earlier ones stay (R102). -/
theorem microOk_block_store (hm : microOk (.block2 c bytes t written published) s) (hw : written < blockLength bytes) :
    microOk (.block2 c bytes t (written + 1) published)
      (s.withSlot c (s.advIdx c t written) (blockByte bytes written)) := by
  obtain ⟨hc, ht, hpw, -, hlen, htail, hroom, hslot⟩ := hm
  have hM : s.len c = s.cap c + 1 := rfl
  refine ⟨hc, ht, by omega, hw, hlen, by simpa using htail, by simpa using hroom, ?_⟩
  intro k hk
  rw [State.withSlot_advIdx]
  rcases Nat.lt_or_eq_of_le (Nat.le_of_lt_succ hk) with hlt | rfl
  · have hne : s.advIdx c t k ≠ s.advIdx c t written := fun heq => by
      have := (State.advIdx_inj (by omega) (by omega)).1 heq
      omega
    rw [State.withSlot_slot_other s c _ hne]
    exact hslot k hlt
  · simp

theorem microBlock2_sound {choice : Nat} (hi : s.indicesOk c) (hm : microOk (.block2 c bytes t written published) s) :
    (microBlock2 choice c bytes t written published s).Sound choice s := by
  unfold microBlock2
  split
  next h =>
    obtain ⟨hlt, hle, -⟩ := h
    exact ⟨soundWrite_block hm (Nat.le_of_lt hlt) hle, microOk_block_publish hi hm (Nat.le_of_lt hlt) hle, fun h0 => by omega⟩
  next =>
    split
    next hw =>
      rw [slotWrite_ok.2 ⟨s.advIdx_lt c t written, rfl⟩]
      exact Progress.sound_go_store (s.advIdx_lt c t written) (notLive_of_blockOk hi hm hw) (microOk_block_store hm hw)
    next hw =>
      have ⟨_, _, hpw, hwl, _⟩ := hm
      exact soundWrite_block hm (by omega) (by omega)

end Block

/-- Everything a micro-step does, in the invariant's terms: but for CLEAR's two it is sound. -/
theorem micro_sound {m : Micro} {s : State} (choice : Nat) (hs : (s.setMl (.inOp m)).Inv) :
    (∃ c, m = .clear1 c ∨ m = .clear2 c) ∨ (micro choice m s).Sound choice s := by
  have hi : ∀ c, s.indicesOk c := hs.indicesOk
  have hm : microOk m s := hs.mainLoopOk
  cases m with
  | clear1 c => exact .inl ⟨c, .inl rfl⟩
  | clear2 c => exact .inl ⟨c, .inr rfl⟩
  | push1 c b => exact .inr (microPush1_sound hm)
  | push2 c b => exact .inr (microPush2_sound (hi c) hm)
  | push3 c b => exact .inr (microPush3_sound (choice := choice) (hi c) hm)
  | pop1 c => exact .inr (microPop1_sound hm)
  | pop2 c => exact .inr (microPop2_sound (hi c) (hs.liveWritten (by simp)) hm)
  | pop3 c v =>
    obtain ⟨-, he, -⟩ := hm
    exact .inr (.drop c he)
  | block1 c bytes => exact .inr (microBlock1_sound (hi c) hm)
  | block2 c bytes t written published => exact .inr (microBlock2_sound (hi c) hm)
  | query1 q c =>
    refine .inr ?_
    simp only [micro, microQuery1]
    split
    · exact Progress.sound_go_same trivial
    · exact Progress.sound_go_same trivial
  | queryTail q c h => exact .inr .nothing
  | queryHead q c t => exact .inr .nothing
  | stwr1 v => exact .inr (.sr v)
  | irqen1 src => exact .inr (.ie src true)
  | irqdis1 src => exact .inr (.ie src false)

end Sys2Proof.Machine

/-!
SUPPORT. Every step is safe (10_state.md R37, R38; 60_exceptions.md R153): from a state that meets the invariant it leads to
one that meets it, or stops where the spec says it stops. CLEAR's two micro-steps, the uninterrupted run, the handlers and the
turns.
-/

namespace Sys2Proof.Machine

/-- The two faults the spec gives a step from a state that meets the invariant (R153). -/
abbrev Fault.ofSpec (f : Fault) : Prop := f = .hotplugPushOnFull ∨ ∃ c, f = .clearUnmasked c

/-- A step's outcome is safe: a state that meets the invariant, one of the spec's two faults, or a refusal. -/
def SafeOutcome : Host.Outcome State Fault Refusal → Prop
  | .next t => t.Inv
  | .fault f => f.ofSpec
  | .refused _ => True

/-! ### CLEAR -/

theorem State.liveWritten_congr {s t : State} {c : Channel} (hpar : t.par = s.par) (hch : t.chan c = s.chan c) :
    t.liveWritten c ↔ s.liveWritten c := by
  rw [State.liveWritten_iff_queue, State.liveWritten_iff_queue, State.queue_congr hpar hch]

/-- A channel whose cells do not change stays as it is while the main loop is not in its CLEAR. -/
theorem State.chanOk_of_chan_eq {s t : State} {c : Channel} (hs : s.chanOk c) (hml : s.ml ≠ .inOp (.clear2 c))
    (hpar : t.par = s.par) (hch : t.chan c = s.chan c) : t.chanOk c := by
  obtain ⟨hi, hb, hw⟩ := hs
  exact ⟨(State.indicesOk_congr hpar hch).2 hi, (State.bufferOk_congr hpar hch).2 hb,
    .inr ((State.liveWritten_congr hpar hch).2 (hw.resolve_left hml))⟩

/-- CLEAR's head write: what is live of the channel is of no concern until the tail write (R106). -/
theorem inv_clear1 {c : Channel} {s : State} (hs : (s.setMl (.inOp (.clear1 c))).Inv) :
    ((s.setHead c 0).setMl (.inOp (.clear2 c))).Inv := by
  obtain ⟨hwf, hch, hmask, hpend⟩ := State.inv_iff.1 hs
  refine State.inv_iff.2 ⟨hwf, fun c' => ?_, ⟨hmask, s.setHead_head c 0⟩, hpend⟩
  by_cases hc : c' = c
  · subst hc
    obtain ⟨hi, hb, -⟩ := hch c'
    exact ⟨State.indicesOk_setHead (s := s) hi (s.len_pos c'), State.bufferOk_setHead (s := s) hb, .inl rfl⟩
  · exact State.chanOk_of_chan_eq (hch c') (by simp) rfl (State.withChan_chan_other s _ hc)

/-- CLEAR's tail write leaves the channel empty (R106). -/
theorem inv_clear2 {c : Channel} {s : State} (hs : (s.setMl (.inOp (.clear2 c))).Inv) :
    ((s.setTail c 0).setMl .idle).Inv := by
  obtain ⟨hwf, hch, ⟨-, hhead⟩, hpend⟩ := State.inv_iff.1 hs
  refine State.inv_iff.2 ⟨hwf, fun c' => ?_, trivial, hpend⟩
  by_cases hc : c' = c
  · subst hc
    obtain ⟨hi, hb, -⟩ := hch c'
    have hi' : (s.setTail c' 0).indicesOk c' := State.indicesOk_setTail (s := s) hi (s.len_pos c')
    have hsize : (s.setTail c' 0).size c' = 0 := by
      refine State.size_eq_of_tail hi' (s.len_pos c') ?_
      rw [State.setTail_tail, State.advIdx_zero hi'.1, State.setTail_head]
      exact hhead.symm
    refine ⟨hi', State.bufferOk_setTail (s := s) hb, .inr fun k hk => ?_⟩
    have hk' : k < (s.setTail c' 0).size c' := hk
    omega
  · exact State.chanOk_of_chan_eq (hch c') (by simpa using Ne.symm hc) rfl (State.withChan_chan_other s _ hc)

/-! ### Micro-steps and runs -/

/-- A micro-step's progress is safe: what it leaves meets the invariant. -/
def Progress.Safe (m : Micro) : Progress → Prop
  | .hold => True
  | .go m' t => (t.setMl (.inOp m')).Inv
  | .done res t => (complete m res t).Inv
  | .fault _ => False

theorem SoundWrite.inv_idle {s t : State} (h : SoundWrite s t) (hs : (s.setMl .idle).Inv) : (t.setMl .idle).Inv :=
  (h.setMl .idle).inv hs trivial

theorem Progress.Sound.safe {choice : Nat} {m : Micro} {s : State} {p : Progress} (hs : (s.setMl .idle).Inv)
    (hp : p.Sound choice s) : p.Safe m := by
  cases p with
  | hold => trivial
  | go m' t =>
    obtain ⟨hw, hm, -⟩ := hp
    exact (hw.inv_idle hs).setMl_inOp hm
  | done res t =>
    have hw : SoundWrite s t := hp
    exact hw.inv_idle hs
  | fault f => exact hp

theorem micro_safe {m : Micro} {s : State} (choice : Nat) (hs : (s.setMl (.inOp m)).Inv) : (micro choice m s).Safe m := by
  by_cases hclear : ∃ c, m = .clear1 c ∨ m = .clear2 c
  · obtain ⟨c, rfl | rfl⟩ := hclear
    · exact inv_clear1 hs
    · exact inv_clear2 hs
  · have hidle : (s.setMl .idle).Inv := hs.setMl_idle fun c hc => hclear ⟨c, .inr (MainLoop.inOp.inj hc)⟩
    exact ((micro_sound choice hs).resolve_left hclear).safe hidle

theorem settle_safe {m : Micro} {held : State} {p : Progress} (hheld : held.Inv) (hp : p.Safe m) :
    SafeOutcome (settle m held p) := by
  cases p with
  | hold => exact hheld
  | go _ _ | done _ _ => exact hp
  | fault _ => exact hp.elim

theorem runMicros_safe {fuel : Nat} {m : Micro} {s : State} (hs : (s.setMl (.inOp m)).Inv) :
    SafeOutcome (runMicros fuel m s) := by
  induction fuel generalizing m s with
  | zero => exact settle_safe hs (micro_safe 0 hs)
  | succ fuel ih =>
    have hsafe := micro_safe 0 hs
    unfold runMicros
    split
    next m' t hp => exact ih (hp ▸ hsafe :)
    next => exact hs
    next res t hp => exact (hp ▸ hsafe :)
    next f hp => exact ((hp ▸ hsafe :) : False).elim

theorem State.setMl_self {s : State} {m : MainLoop} (h : s.ml = m) : s.setMl m = s := by
  subst h
  rfl

theorem oneMicro_safe {m : Micro} {s : State} (hs : s.Inv) (hml : s.ml = .inOp m) : SafeOutcome (oneMicro m s) := by
  refine settle_safe hs (micro_safe _ ?_)
  rw [State.setMl_self (s := s.drawn) hml]
  exact hs

/-! ### The issue of an operation -/

/-- An admission is sound: the first micro-step's condition holds, or the fault is the spec's. -/
def Admission.Sound (s : State) : Admission → Prop
  | .admitted m => microOk m s
  | .fault f => f.ofSpec
  | .refused _ => True

theorem outbound_of_pushAdmitted {c : Channel} (h : pushAdmitted c = true) : c = .outbound := by
  cases c with
  | inbound => cases h
  | outbound => rfl

theorem admissionOf_sound (i : Instr) (s : State) : (admissionOf i s).Sound s := by
  cases i with
  | push c b =>
    simp only [admissionOf, admitPush]
    split
    · exact outbound_of_pushAdmitted ‹_›
    · trivial
  | pushBlock c bytes =>
    simp only [admissionOf, admitPushBlock]
    split
    · exact outbound_of_pushAdmitted ‹_›
    · trivial
  | pop c =>
    simp only [admissionOf, admitPop]
    split
    · exact ‹_›
    · trivial
  | clear c =>
    simp only [admissionOf, admitClear]
    split
    · exact ‹_›
    · exact .inr ⟨c, rfl⟩
  | _ => trivial

theorem issueAndRun_safe {a : Admission} {s : State} (hs : s.Inv) (ha : a.Sound s) : SafeOutcome (issueAndRun a s) := by
  unfold issueAndRun
  split
  next => exact hs
  next hml =>
    cases a with
    | admitted m => exact runMicros_safe (State.Inv.setMl_inOp ((State.setMl_self hml).symm ▸ hs) ha)
    | fault f => exact ha
    | refused r => trivial

theorem issueOnly_safe {a : Admission} {s : State} (hs : s.Inv) (hml : s.ml = .idle) (ha : a.Sound s) :
    SafeOutcome (issueOnly a s) := by
  cases a with
  | admitted m => exact State.Inv.setMl_inOp ((State.setMl_self hml).symm ▸ hs) ha
  | fault f => exact ha
  | refused r => trivial

theorem issueBy_safe {a : Agent} {d : Desc} {run : Instr → Host.Outcome State Fault Refusal}
    (hrun : ∀ i, i.agent = a → SafeOutcome (run i)) : SafeOutcome (issueBy a d run) := by
  unfold issueBy
  split
  · trivial
  · split
    · exact hrun _ ‹_›
    · trivial

/-! ### What a handler leaves to the main loop -/

/-- While a source of a channel is enabled the main loop is not in that channel's CLEAR (R106). -/
theorem State.Inv.not_clear2 {s : State} (hs : s.Inv) {c : Channel} (hc : s.sourcesMasked c = false) :
    s.ml ≠ .inOp (.clear2 c) := by
  intro hml
  obtain ⟨hmask, -⟩ := hs.microOk_of_ml hml
  simp [hc] at hmask

theorem State.mainLoopOk_of_microOk {s t : State} (hs : s.mainLoopOk) (hml : t.ml = s.ml)
    (h : ∀ m, microOk m s → microOk m t) : t.mainLoopOk := by
  unfold State.mainLoopOk at hs ⊢
  rw [hml]
  split at hs
  · trivial
  · exact h _ hs

/-- A read that takes a byte out of Outbound leaves true what the main loop relies on (R60, R61): it only makes room there,
and POP and CLEAR of Outbound are not under way while RD is enabled. -/
theorem microOk_drop_outbound {s : State} (hrd : s.ie.rd = true) (hi : s.indicesOk .outbound) (he : s.empty .outbound = false)
    (m : Micro) (hm : microOk m s) : microOk m (s.setHead .outbound (s.nextIdx .outbound (s.head .outbound))) := by
  have hsize := State.size_setHead_nextIdx hi he
  have hfull : (s.setHead .outbound (s.nextIdx .outbound (s.head .outbound))).full .outbound = false :=
    State.not_full_of_size_lt (State.indicesOk_setHead hi (s.nextIdx_lt _ _))
      (by rw [State.setHead_cap]; have := s.size_le_cap .outbound; omega)
  have hadmit : s.popAdmitted .outbound = false := by simp [State.popAdmitted, hrd]
  have hmask : s.sourcesMasked .outbound = false := by simp [State.sourcesMasked, hrd]
  cases m with
  | push2 c b =>
    obtain ⟨rfl, -⟩ := hm
    exact ⟨rfl, hfull⟩
  | push3 c b =>
    obtain ⟨rfl, -, hslot⟩ := hm
    exact ⟨rfl, hfull, hslot⟩
  | pop2 c =>
    cases c with
    | inbound => exact hm
    | outbound => exact absurd (hadmit.symm.trans hm.1) Bool.false_ne_true
  | pop3 c v =>
    cases c with
    | inbound => exact hm
    | outbound => exact absurd (hadmit.symm.trans hm.1) Bool.false_ne_true
  | block2 c bytes t written published =>
    obtain ⟨rfl, ht, hpw, hwl, hlen, htail, hroom, hslot⟩ := hm
    exact ⟨rfl, ht, hpw, hwl, hlen, htail, by rw [State.setHead_cap]; omega, hslot⟩
  | clear2 c =>
    cases c with
    | inbound => exact hm
    | outbound => exact absurd (hmask.symm.trans hm.1) Bool.false_ne_true
  | _ => exact hm

/-- A handler's push into Inbound leaves true what the main loop relies on (R60, R61): it only adds data there, behind the
oldest byte, and CLEAR of Inbound is not under way while WR or MP is enabled. -/
theorem microOk_push_inbound {s : State} (hmask : s.sourcesMasked .inbound = false) (hi : s.indicesOk .inbound)
    (hf : s.full .inbound = false) (b : Byte) (m : Micro) (hm : microOk m s) :
    microOk m ((s.withSlot .inbound (s.tail .inbound) b).setTail .inbound (s.nextIdx .inbound (s.tail .inbound))) := by
  have hempty : ((s.withSlot .inbound (s.tail .inbound) b).setTail .inbound
      (s.nextIdx .inbound (s.tail .inbound))).empty .inbound = false := by
    have hi' := State.indicesOk_withSlot (i := s.tail .inbound) (b := b) hi
    refine State.not_empty_of_size_pos (State.indicesOk_setTail hi' (s.nextIdx_lt _ _)) ?_
    have hsize := State.size_setTail_advIdx (n := 1) hi' (by simpa using State.size_lt_cap_of_not_full hi hf)
    rw [State.withSlot_tail] at hsize
    exact Nat.lt_of_lt_of_eq (Nat.succ_pos _) hsize.symm
  cases m with
  | push1 c _ | block1 c _ => exact hm
  | push2 c _ | push3 c _ | block2 c _ _ _ _ =>
    obtain ⟨rfl, hm⟩ := hm
    exact ⟨rfl, hm⟩
  | pop2 c =>
    cases c with
    | outbound => exact hm
    | inbound => exact ⟨rfl, hempty⟩
  | pop3 c v =>
    cases c with
    | outbound => exact hm
    | inbound =>
      obtain ⟨-, he, hslot⟩ := hm
      have hne : s.head .inbound ≠ s.tail .inbound := by simpa [State.empty, emptyOfIdx] using he
      exact ⟨rfl, hempty, (State.withSlot_slot_other s .inbound b hne).trans hslot⟩
  | clear2 c =>
    cases c with
    | outbound => exact hm
    | inbound => exact absurd (hmask.symm.trans hm.1) Bool.false_ne_true
  | _ => exact hm

end Sys2Proof.Machine

namespace Sys2Proof.Machine

/-! ### The handlers -/

/-- A handler's result is safe: what it leaves meets the invariant, or it faults as the spec says. -/
def SafeResult {α : Type} (state : α → State) : Except Fault α → Prop
  | .ok a => (state a).Inv
  | .error f => f.ofSpec

theorem readHandler_safe {s : State} (hs : s.Inv) (hrd : s.ie.rd = true) : SafeResult Prod.snd (readHandler s) := by
  have hi := hs.indicesOk .outbound
  have hmask : s.sourcesMasked .outbound = false := by simp [State.sourcesMasked, hrd]
  unfold readHandler
  split
  · exact hs
  · split
    · exact hs
    · next he =>
      have he : s.empty .outbound = false := by simpa using he
      obtain ⟨v, hv⟩ := State.slot_head_isSome hi (hs.liveWritten (hs.not_clear2 hmask)) he
      rw [dequeue_ok.2 ⟨hi.1, hv, rfl⟩]
      exact (SoundWrite.drop .outbound he).inv hs
        (State.mainLoopOk_of_microOk hs.mainLoopOk rfl (microOk_drop_outbound hrd hi he))

/-- A handler's push into an Inbound that is not full keeps the invariant. -/
theorem enqueue_inbound_safe {s : State} (hs : s.Inv) (hmask : s.sourcesMasked .inbound = false)
    (hf : s.full .inbound = false) (b : Byte) : ∃ t, enqueue .inbound b s = .ok t ∧ t.Inv := by
  have hi := hs.indicesOk .inbound
  exact ⟨_, enqueue_ok.2 ⟨hi.2, rfl⟩, (SoundWrite.push .inbound b hf).inv hs
    (State.mainLoopOk_of_microOk hs.mainLoopOk rfl (microOk_push_inbound hmask hi hf b))⟩

theorem writeHandler_safe {s : State} {b : Byte} (hs : s.Inv) (hwr : s.ie.wr = true) : SafeResult id (writeHandler b s) := by
  have hmask : s.sourcesMasked .inbound = false := by simp [State.sourcesMasked, hwr]
  unfold writeHandler
  split
  · exact hs
  · next hf =>
    obtain ⟨t, ht, hinv⟩ := enqueue_inbound_safe hs hmask (by simpa using hf) b
    rw [ht]
    exact hinv

/-- Masking MP takes away no condition the main loop relies on (R132). -/
theorem microOk_mask_mp {s : State} (m : Micro) (hm : microOk m s) : microOk m (s.setIe .mp false) := by
  have hmask : ∀ c, s.sourcesMasked c = true → (s.setIe .mp false).sourcesMasked c = true := by
    intro c h
    cases c with
    | outbound => exact h
    | inbound =>
      have hw : s.ie.wr = false := by simpa using (Bool.and_eq_true_iff.1 h).1
      simp [State.sourcesMasked, Lines.set, hw]
  cases m with
  | clear1 c => exact hmask c hm
  | clear2 c => exact ⟨hmask c hm.1, hm.2⟩
  | pop1 c | pop2 c | pop3 c _ => cases c <;> exact hm
  | _ => exact hm

theorem mediaHandler_safe {s : State} (hs : s.Inv) (hmp : s.ie.mp = true) : SafeResult id (mediaHandler s) := by
  have hmask : s.sourcesMasked .inbound = false := by simp [State.sourcesMasked, hmp]
  unfold mediaHandler
  split
  · exact .inl rfl
  · next hf =>
    obtain ⟨t, ht, hinv⟩ := enqueue_inbound_safe hs hmask (by simpa using hf) s.par.hotplug
    rw [ht]
    exact (SoundWrite.ie .mp false).inv hinv (State.mainLoopOk_of_microOk hinv.mainLoopOk rfl microOk_mask_mp)

theorem answerRead_safe {s : State} (hs : s.Inv) (hrd : s.ie.rd = true) : SafeResult Prod.snd (answerRead s) := by
  have h := readHandler_safe hs hrd
  unfold answerRead
  cases hr : readHandler s <;> rw [hr] at h <;> exact h

theorem answerWrite_safe {s : State} {b : Byte} (hs : s.Inv) (hwr : s.ie.wr = true) :
    SafeResult Prod.snd (answerWrite b s) := by
  have h := writeHandler_safe (b := b) hs hwr
  unfold answerWrite
  cases hr : writeHandler b s <;> rw [hr] at h <;> exact h

theorem answerMedia_safe {s : State} (hs : s.Inv) (hmp : s.ie.mp = true) : SafeResult Prod.snd (answerMedia s) := by
  have h := mediaHandler_safe hs hmp
  unfold answerMedia
  cases hr : mediaHandler s <;> rw [hr] at h <;> exact h

theorem deferredHandler_safe {src : Source} {s : State} (hs : s.Inv) (he : s.enabled src = true) :
    SafeResult id (deferredHandler src s) := by
  cases src with
  | rd =>
    have h := readHandler_safe hs he
    unfold deferredHandler
    cases hr : readHandler s <;> rw [hr] at h <;> exact h
  | wr => exact writeHandler_safe (s := s.drawn) hs he
  | mp => exact mediaHandler_safe hs he

/-! ### Edges, turns and the step -/

/-- Pending bits may change as `MASKED_EDGE` allows (R31). -/
theorem State.Inv.withPend {s : State} (hs : s.Inv) {p : Lines} (hp : s.par.maskedEdge = .lost → p = Lines.zero) :
    ({ s with pend := p } : State).Inv := by
  obtain ⟨hwf, hch, hml, -⟩ := State.inv_iff.1 hs
  exact State.inv_iff.2 ⟨hwf, hch, hml, hp⟩

theorem State.Inv.pend_eq_zero {s : State} (hs : s.Inv) (hl : s.par.maskedEdge = .lost) : s.pend = Lines.zero :=
  (State.inv_iff.1 hs).2.2.2 hl

theorem maskedEdge_inv {src : Source} {s : State} (hs : s.Inv) : (maskedEdge src s).Inv := by
  refine State.Inv.withPend (s := s.drawn) hs fun hl => ?_
  have hlatch : s.latches = false := by rw [State.latches, show s.par.maskedEdge = .lost from hl]
  rw [hlatch, hs.pend_eq_zero hl]
  cases src <;> rfl

theorem setPend_false_inv {src : Source} {s : State} (hs : s.Inv) : (s.setPend src false).Inv := by
  refine hs.withPend fun hl => ?_
  rw [hs.pend_eq_zero hl]
  cases src <;> rfl

theorem edge_safe {src : Source} {handler : State → Except Fault (Obs × State)} {masked : State → Obs} {s : State}
    (hs : s.Inv) (hh : s.enabled src = true → SafeResult Prod.snd (handler s)) : SafeOutcome (edge src handler masked s) := by
  unfold edge
  split
  next he =>
    have hsafe := hh he
    cases hr : handler s <;> rw [hr] at hsafe <;> exact hsafe
  next => exact maskedEdge_inv hs

theorem execRdstb_safe {s : State} (hs : s.Inv) : SafeOutcome (execRdstb s) := edge_safe hs (answerRead_safe hs)

theorem execWrstb_safe {b : Byte} {s : State} (hs : s.Inv) : SafeOutcome (execWrstb b s) := edge_safe hs (answerWrite_safe hs)

theorem execMpedge_safe {s : State} (hs : s.Inv) : SafeOutcome (execMpedge s) := edge_safe hs (answerMedia_safe hs)

theorem exec_safe {i : Instr} {s : State} (hs : s.Inv) : SafeOutcome (exec i s) := by
  cases i with
  | rdstb => exact execRdstb_safe hs
  | wrstb b => exact execWrstb_safe hs
  | mpedge => exact execMpedge_safe hs
  | _ =>
    rw [exec_mainLoop rfl]
    exact issueAndRun_safe hs (admissionOf_sound _ s)

theorem deferredRun_safe {src : Source} {s : State} (hs : s.Inv) : SafeOutcome (deferredRun src s) := by
  unfold deferredRun
  split
  next he =>
    have hsafe := deferredHandler_safe (src := src) (setPend_false_inv (src := src) hs) (Bool.and_eq_true_iff.1 he).1
    cases hr : deferredHandler src (s.setPend src false) <;> rw [hr] at hsafe <;> exact hsafe
  next => exact hs

theorem mainLoopTurn_safe {s : State} (hs : s.Inv) : SafeOutcome (mainLoopTurn s) := by
  unfold mainLoopTurn
  split
  next m hml => exact runMicros_safe ((State.setMl_self hml).symm ▸ hs)
  next =>
    split
    next => exact hs
    next d rest _ => exact issueBy_safe fun i _ => exec_safe (s := { s with prog := rest }) hs

theorem microTurn_safe {s : State} (hs : s.Inv) : SafeOutcome (microTurn s) := by
  unfold microTurn
  split
  next m hml => exact oneMicro_safe hs hml
  next hml =>
    split
    next => exact hs
    next d rest _ => exact issueBy_safe fun i _ => issueOnly_safe (s := { s with prog := rest }) hs hml (admissionOf_sound i s)

theorem takeTurn_safe {turn : Turn} {s : State} (hs : s.Inv) : SafeOutcome (takeTurn turn s) := by
  cases turn with
  | mainLoop => exact mainLoopTurn_safe hs
  | micro => exact microTurn_safe hs
  | host d => exact issueBy_safe fun i _ => exec_safe hs
  | line d => exact issueBy_safe fun i _ => exec_safe hs
  | deferred src => exact deferredRun_safe hs

theorem step_safe {s : State} (hs : s.Inv) : SafeOutcome (step s) :=
  takeTurn_safe (s := { s with turns := s.turns.tail }) hs

/-- Settles O36: a step is one turn, and every turn's outcome is safe. -/
theorem stepKeepsInvariant : Obligations.StepKeepsInvariant := by
  intro s t hs h
  have hsafe := step_safe hs
  rwa [h] at hsafe

/-- Settles O38: a step that faults makes one of the spec's two faults, since its outcome is safe. -/
theorem onlyTwoFaultsCanArise : Obligations.OnlyTwoFaultsCanArise := by
  intro s f hs h
  have hsafe := step_safe hs
  rwa [h] at hsafe

end Sys2Proof.Machine

/-!
SUPPORT. A channel is a first-in first-out queue under every step (10_state.md R24, 20_memory.md R53, R60, R61): each
micro-step and each handler makes a step of the queue, and an uninterrupted run makes at most one, at its end.
-/

namespace Sys2Proof.Machine

/-- A step of the queue, unless a CLEAR of the channel is under way or has just ended. -/
def QueueLaw (c : Channel) (s t : State) : Prop :=
  QueueStep c s t ∨ t.ml = .inOp (.clear2 c) ∨ t.trace = .op (.clear c) .nothing :: s.trace

theorem QueueStep.refl (c : Channel) (s : State) : QueueStep c s s := .inl rfl

/-- A step of the queue speaks of its contents only. -/
theorem QueueStep.of_queue_eq {c : Channel} {s u t : State} (h : QueueStep c u t) (hu : u.queue c = s.queue c) :
    QueueStep c s t := by
  unfold QueueStep at h ⊢
  rwa [hu] at h

/-! ### The micro-steps -/

theorem OneWrite.trace_eq {s t : State} (h : OneWrite s t) : t.trace = s.trace := by cases h <;> rfl

theorem micro_trace {choice : Nat} {m : Micro} {s t : State} (h : (micro choice m s).state = some t) : t.trace = s.trace :=
  (micro_oneWrite h).trace_eq

/-- A micro-step that goes on makes a step of the queue, or is CLEAR's first; with no early publication it leaves the queue
alone. -/
theorem micro_go_queue {choice : Nat} {m m' : Micro} {s t : State} (c : Channel) (hs : (s.setMl (.inOp m)).Inv)
    (hp : micro choice m s = .go m' t) : m' = .clear2 c ∨ (QueueStep c s t ∧ (choice = 0 → t.queue c = s.queue c)) := by
  obtain ⟨c', rfl | rfl⟩ | hsound := micro_sound choice hs
  · cases hp
    by_cases hc : c = c'
    · subst hc
      exact .inl rfl
    · have hq : (s.setHead c' 0).queue c = s.queue c := State.queue_congr rfl (State.withChan_chan_other s _ hc)
      exact .inr ⟨.inl hq, fun _ => hq⟩
  · cases hp
  · rw [hp] at hsound
    obtain ⟨hw, -, hq⟩ := hsound
    exact .inr ⟨hw.queueStep (hs.indicesOk c), fun h0 => hq h0 c⟩

/-- A micro-step that ends its operation makes a step of the queue, or is CLEAR's second. -/
theorem micro_done_queue {choice : Nat} {m : Micro} {res : Res} {s t : State} {c : Channel} (hs : (s.setMl (.inOp m)).Inv)
    (hp : micro choice m s = .done res t) (hm : m ≠ .clear2 c) : QueueStep c s t := by
  obtain ⟨c', rfl | rfl⟩ | hsound := micro_sound choice hs
  · cases hp
  · cases hp
    have hc : c ≠ c' := fun h => hm (by rw [h])
    exact .inl (State.queue_congr rfl (State.withChan_chan_other s _ hc))
  · rw [hp] at hsound
    have hw : SoundWrite s t := hsound
    exact hw.queueStep (hs.indicesOk c)

/-- The end of a micro-step, after which CLEAR shows in the trace. -/
theorem complete_queueLaw {choice : Nat} {m : Micro} {res : Res} {s t : State} {c : Channel} (hs : (s.setMl (.inOp m)).Inv)
    (hp : micro choice m s = .done res t) : QueueLaw c s (complete m res t) := by
  by_cases hm : m = .clear2 c
  · subst hm
    cases hp
    exact .inr (.inr rfl)
  · have hq : QueueStep c s t := micro_done_queue hs hp hm
    exact .inl hq

theorem oneMicro_queueLaw {m : Micro} {s t : State} {c : Channel} (hs : s.Inv) (hml : s.ml = .inOp m)
    (h : oneMicro m s = .next t) : QueueLaw c s t := by
  have hs' : (s.drawn.setMl (.inOp m)).Inv := by
    rw [State.setMl_self (s := s.drawn) hml]
    exact hs
  obtain ⟨-, rfl⟩ | ⟨m', u, hp, rfl⟩ | ⟨res, u, hp, rfl⟩ := settle_next.1 h
  · exact .inl (.refl c _)
  · obtain rfl | ⟨hq, -⟩ := micro_go_queue c hs' hp
    · exact .inr (.inl rfl)
    · exact .inl hq
  · exact (complete_queueLaw hs' hp :)

/-- What an uninterrupted run keeps of its start: the trace, and the queue until CLEAR's second micro-step. -/
def RunKeeps (c : Channel) (s : State) (m : Micro) (u : State) : Prop :=
  (u.setMl (.inOp m)).Inv ∧ u.trace = s.trace ∧ (m = .clear2 c ∨ u.queue c = s.queue c)

theorem RunKeeps.go {c : Channel} {s u t : State} {m m' : Micro} (h : RunKeeps c s m u) (hp : micro 0 m u = .go m' t) :
    RunKeeps c s m' t := by
  obtain ⟨hinv, htrace, hq⟩ := h
  have hsafe := micro_safe 0 hinv
  rw [hp] at hsafe
  refine ⟨hsafe, (micro_trace (congrArg Progress.state hp)).trans htrace, (micro_go_queue c hinv hp).imp_right fun hgo => ?_⟩
  obtain rfl | hq := hq
  · cases hp
  · exact (hgo.2 rfl).trans hq

theorem RunKeeps.done {c : Channel} {s u t : State} {m : Micro} {res : Res} (h : RunKeeps c s m u)
    (hp : micro 0 m u = .done res t) : QueueLaw c s (complete m res t) := by
  obtain ⟨hinv, htrace, hq⟩ := h
  by_cases hm : m = .clear2 c
  · subst hm
    cases hp
    exact .inr (.inr (congrArg _ htrace))
  · exact .inl ((micro_done_queue hinv hp hm).of_queue_eq (hq.resolve_left hm))

theorem runFrom_queueLaw {m : Micro} {s t : State} {c : Channel} (hs : (s.setMl (.inOp m)).Inv) (h : runFrom m s = .next t) :
    QueueLaw c s t := by
  refine runMicros_induction (P := RunKeeps c s) (Q := QueueLaw c s) ?_ (fun _ _ _ _ hu hp => hu.go hp)
    (fun _ _ _ _ hu hp => hu.done hp) ⟨hs, rfl, .inr rfl⟩ h
  rintro m u ⟨-, -, rfl | hq⟩
  · exact .inr (.inl rfl)
  · exact .inl (.inl hq)

/-! ### The handlers -/

theorem readHandler_queueStep {s t : State} {v : Byte} {c : Channel} (hi : s.indicesOk c) (h : readHandler s = .ok (v, t)) :
    QueueStep c s t := by
  obtain ⟨-, -, rfl⟩ | ⟨-, -, -, rfl⟩ | ⟨-, he, h⟩ := readHandler_ok.1 h
  · exact .refl c _
  · exact .refl c _
  · obtain ⟨-, -, rfl⟩ := dequeue_ok.1 h
    exact (SoundWrite.drop .outbound he).queueStep hi

theorem enqueue_queueStep {s t : State} {b : Byte} {c' c : Channel} (hi : s.indicesOk c) (hf : s.full c' = false)
    (h : enqueue c' b s = .ok t) : QueueStep c s t := by
  obtain ⟨-, rfl⟩ := enqueue_ok.1 h
  exact (SoundWrite.push c' b hf).queueStep hi

theorem writeHandler_queueStep {s t : State} {b : Byte} {c : Channel} (hi : s.indicesOk c) (h : writeHandler b s = .ok t) :
    QueueStep c s t := by
  obtain ⟨-, rfl⟩ | ⟨hf, h⟩ := writeHandler_ok.1 h
  · exact .inl rfl
  · exact enqueue_queueStep hi hf h

theorem mediaHandler_queueStep {s t : State} {c : Channel} (hi : s.indicesOk c) (h : mediaHandler s = .ok t) :
    QueueStep c s t := by
  obtain ⟨hf, u, hu, rfl⟩ := mediaHandler_ok.1 h
  exact (enqueue_queueStep hi hf hu :)

theorem edge_queueStep {src : Source} {handler : State → Except Fault (Obs × State)} {masked : State → Obs} {s t : State}
    {c : Channel} (handler_queueStep : ∀ o u, handler s = .ok (o, u) → QueueStep c s u)
    (h : edge src handler masked s = .next t) : QueueStep c s t := by
  obtain ⟨-, o, u, hu, rfl⟩ | ⟨-, rfl⟩ := edge_next.1 h
  · exact (handler_queueStep o u hu :)
  · exact .inl rfl

theorem execRdstb_queueStep {s t : State} {c : Channel} (hi : s.indicesOk c) (h : execRdstb s = .next t) : QueueStep c s t := by
  refine edge_queueStep (fun o u hu => ?_) h
  obtain ⟨v, -, hv⟩ := answerRead_ok.1 hu
  exact readHandler_queueStep hi hv

theorem execWrstb_queueStep {b : Byte} {s t : State} {c : Channel} (hi : s.indicesOk c) (h : execWrstb b s = .next t) :
    QueueStep c s t :=
  edge_queueStep (fun _ _ hu => writeHandler_queueStep hi (answerWrite_ok.1 hu).2) h

theorem execMpedge_queueStep {s t : State} {c : Channel} (hi : s.indicesOk c) (h : execMpedge s = .next t) : QueueStep c s t :=
  edge_queueStep (fun _ _ hu => mediaHandler_queueStep hi (answerMedia_ok.1 hu).2) h

theorem deferredHandler_queueStep {src : Source} {s t : State} {c : Channel} (hi : s.indicesOk c)
    (h : deferredHandler src s = .ok t) : QueueStep c s t := by
  cases src with
  | rd =>
    simp only [deferredHandler] at h
    split at h <;> cases h
    exact readHandler_queueStep hi ‹_›
  | wr => exact writeHandler_queueStep (s := s.drawn) hi h
  | mp => exact mediaHandler_queueStep hi h

/-! ### The turns -/

theorem issueAndRun_queueLaw {a : Admission} {s t : State} {c : Channel} (hs : s.Inv) (ha : a.Sound s)
    (h : issueAndRun a s = .next t) : QueueLaw c s t := by
  obtain ⟨-, rfl⟩ | ⟨hml, m, rfl, hrun⟩ := issueAndRun_next.1 h
  · exact .inl (.refl c _)
  · exact runFrom_queueLaw (State.Inv.setMl_inOp ((State.setMl_self hml).symm ▸ hs) ha) hrun

theorem exec_queueLaw {i : Instr} {s t : State} {c : Channel} (hs : s.Inv) (h : exec i s = .next t) : QueueLaw c s t := by
  have hi := hs.indicesOk c
  cases i with
  | rdstb => exact .inl (execRdstb_queueStep hi h)
  | wrstb b => exact .inl (execWrstb_queueStep hi h)
  | mpedge => exact .inl (execMpedge_queueStep hi h)
  | _ =>
    rw [exec_mainLoop rfl] at h
    exact issueAndRun_queueLaw hs (admissionOf_sound _ s) h

theorem takeTurn_queueLaw {turn : Turn} {s t : State} {c : Channel} (hs : s.Inv) (h : takeTurn turn s = .next t) :
    QueueLaw c s t := by
  cases turn with
  | mainLoop =>
    obtain ⟨m, hml, hrun⟩ | ⟨-, -, rfl⟩ | ⟨-, d, ps, i, -, -, -, hrun⟩ := mainLoopTurn_next h
    · exact runFrom_queueLaw ((State.setMl_self hml).symm ▸ hs) hrun
    · exact .inl (.refl c _)
    · exact (exec_queueLaw (s := { s with prog := ps }) hs hrun :)
  | micro =>
    obtain ⟨m, hml, hm⟩ | ⟨-, -, rfl⟩ | ⟨-, d, ps, i, m, -, -, -, -, rfl⟩ := microTurn_next h
    · exact oneMicro_queueLaw hs hml hm
    · exact .inl (.refl c _)
    · exact .inl (.inl rfl)
  | host d | line d =>
    obtain ⟨i, -, -, hrun⟩ := issueBy_next.1 h
    exact exec_queueLaw hs hrun
  | deferred src =>
    obtain ⟨-, hrun⟩ | ⟨-, rfl⟩ := deferredRun_next.1 h
    · exact .inl (deferredHandler_queueStep (s := s.setPend src false) (hs.indicesOk c) hrun :)
    · exact .inl (.refl c _)

/-- Settles O49: a step is one turn, and every turn keeps the law of the queue. -/
theorem stepKeepsQueueOrder : Obligations.StepKeepsQueueOrder := by
  intro s t c hs h
  have hlaw : QueueLaw c s t := (takeTurn_queueLaw (s := { s with turns := s.turns.tail }) (c := c) hs h :)
  obtain (hsame | hdrop | hgrow) | hclear | htrace := hlaw
  · exact .inl hsame
  · exact .inr (.inl hdrop)
  · exact .inr (.inr (.inl hgrow))
  · exact .inr (.inr (.inr (.inl hclear)))
  · exact .inr (.inr (.inr (.inr htrace)))

end Sys2Proof.Machine

/-!
SUPPORT. Who writes SR (10_state.md R28), what a host that polls it samples (R29), and the state after reset (R36).
-/

namespace Sys2Proof.Machine

/-! ### The writers of SR and IE -/

/-- Everything a micro-step can do to SR and IE: only STWR, IRQEN and IRQDIS write them (R120 to R122). -/
theorem micro_sr_ie {choice : Nat} {m : Micro} {s t : State} (h : (micro choice m s).state = some t) :
    (t.sr = s.sr ∧ t.ie = s.ie) ∨ (∃ v, m = .stwr1 v ∧ t = s.setSr v) ∨
    (∃ src, m = .irqen1 src ∧ t = s.setIe src true) ∨ (∃ src, m = .irqdis1 src ∧ t = s.setIe src false) := by
  cases m with
  | stwr1 v => cases h; exact .inr (.inl ⟨v, rfl, rfl⟩)
  | irqen1 src => cases h; exact .inr (.inr (.inl ⟨src, rfl, rfl⟩))
  | irqdis1 src => cases h; exact .inr (.inr (.inr ⟨src, rfl, rfl⟩))
  | push1 _ _ | pop1 _ | block1 _ _ =>
    simp only [micro, microPush1, microPop1, microBlock1] at h
    split at h <;> cases h
    exact .inl ⟨rfl, rfl⟩
  | push2 c b =>
    simp only [micro, microPush2] at h
    split at h <;> cases h
    obtain ⟨-, rfl⟩ := slotWrite_ok.1 ‹_›
    exact .inl ⟨rfl, rfl⟩
  | pop2 c =>
    simp only [micro, microPop2] at h
    split at h <;> cases h
    exact .inl ⟨rfl, rfl⟩
  | block2 c bytes tl written published =>
    simp only [micro, microBlock2] at h
    split at h
    · cases h
      exact .inl ⟨rfl, rfl⟩
    · split at h
      · split at h <;> cases h
        obtain ⟨-, rfl⟩ := slotWrite_ok.1 ‹_›
        exact .inl ⟨rfl, rfl⟩
      · cases h
        exact .inl ⟨rfl, rfl⟩
  | query1 q c =>
    simp only [micro, microQuery1] at h
    split at h <;> cases h <;> exact .inl ⟨rfl, rfl⟩
  | push3 _ _ | pop3 _ _ | queryTail _ _ _ | queryHead _ _ _ | clear1 _ | clear2 _ =>
    cases h
    exact .inl ⟨rfl, rfl⟩

theorem micro_go_sr {choice : Nat} {m m' : Micro} {s t : State} (hp : micro choice m s = .go m' t) : t.sr = s.sr := by
  obtain ⟨hsr, -⟩ | ⟨v, rfl, -⟩ | ⟨src, -, rfl⟩ | ⟨src, -, rfl⟩ := micro_sr_ie (congrArg Progress.state hp)
  · exact hsr
  · cases hp
  · rfl
  · rfl

/-- SR is as before, or an STWR of the value it now has is the newest entry of the trace. -/
def SrKeptOrWritten (s t : State) : Prop := t.sr = s.sr ∨ t.trace = .op (.stwr t.sr) .nothing :: s.trace

theorem micro_done_sr {choice : Nat} {m : Micro} {res : Res} {s t : State} (hp : micro choice m s = .done res t) :
    SrKeptOrWritten s (complete m res t) := by
  obtain ⟨hsr, -⟩ | ⟨v, rfl, -⟩ | ⟨src, -, rfl⟩ | ⟨src, -, rfl⟩ := micro_sr_ie (congrArg Progress.state hp)
  · exact .inl hsr
  · cases hp
    exact .inr rfl
  · exact .inl rfl
  · exact .inl rfl

theorem oneMicro_sr {m : Micro} {s t : State} (h : oneMicro m s = .next t) : SrKeptOrWritten s t := by
  obtain ⟨-, rfl⟩ | ⟨m', u, hp, rfl⟩ | ⟨res, u, hp, rfl⟩ := settle_next.1 h
  · exact .inl rfl
  · exact .inl (micro_go_sr hp :)
  · exact (micro_done_sr hp :)

theorem SrKeptOrWritten.of_eq {s u t : State} (h : SrKeptOrWritten u t) (hsr : u.sr = s.sr) (htrace : u.trace = s.trace) :
    SrKeptOrWritten s t := by
  unfold SrKeptOrWritten at h ⊢
  rwa [hsr, htrace] at h

theorem runFrom_sr {m : Micro} {s t : State} (h : runFrom m s = .next t) : SrKeptOrWritten s t :=
  runMicros_induction (P := fun _ u => u.sr = s.sr ∧ u.trace = s.trace) (Q := SrKeptOrWritten s)
    (hold := fun _ _ hu => .inl hu.1)
    (go := fun _ _ _ _ hu hp =>
      ⟨(micro_go_sr hp).trans hu.1, (micro_trace (congrArg Progress.state hp)).trans hu.2⟩)
    (done := fun _ _ _ _ hu hp => (micro_done_sr hp).of_eq hu.1 hu.2)
    ⟨rfl, rfl⟩ h

theorem readHandler_sr {s t : State} {v : Byte} (h : readHandler s = .ok (v, t)) : t.sr = s.sr :=
  (congrArg State.sr (readHandler_frame h) :)

theorem writeHandler_sr {s t : State} {b : Byte} (h : writeHandler b s = .ok t) :
    t.sr = s.sr ∨ (s.full .inbound = true ∧ t.sr = s.par.overrun) := by
  obtain ⟨hf, ht⟩ | ht := writeHandler_frame h
  · exact .inr ⟨hf, congrArg State.sr ht⟩
  · exact .inl (congrArg State.sr ht :)

theorem mediaHandler_sr {s t : State} (h : mediaHandler s = .ok t) : t.sr = s.sr :=
  (congrArg State.sr (mediaHandler_frame h) :)

theorem execRdstb_sr {s t : State} (h : execRdstb s = .next t) : t.sr = s.sr := by
  obtain ⟨-, o, u, hu, rfl⟩ | ⟨-, rfl⟩ := edge_next.1 h
  · obtain ⟨v, -, hv⟩ := answerRead_ok.1 hu
    exact (readHandler_sr hv :)
  · rfl

theorem execWrstb_sr {b : Byte} {s t : State} (h : execWrstb b s = .next t) :
    t.sr = s.sr ∨ (s.ie.wr = true ∧ s.full .inbound = true ∧ t.sr = s.par.overrun) := by
  obtain ⟨he, o, u, hu, rfl⟩ | ⟨-, rfl⟩ := edge_next.1 h
  · exact (writeHandler_sr (answerWrite_ok.1 hu).2).imp_right fun hover => ⟨he, hover⟩
  · exact .inl rfl

theorem execMpedge_sr {s t : State} (h : execMpedge s = .next t) : t.sr = s.sr := by
  obtain ⟨-, o, u, hu, rfl⟩ | ⟨-, rfl⟩ := edge_next.1 h
  · exact (mediaHandler_sr (answerMedia_ok.1 hu).2 :)
  · rfl

theorem exec_mainLoop_sr {i : Instr} {s t : State} (ha : i.agent = .mainLoop) (h : exec i s = .next t) :
    SrKeptOrWritten s t := by
  rw [exec_mainLoop ha] at h
  obtain ⟨-, rfl⟩ | ⟨-, m, -, hrun⟩ := issueAndRun_next.1 h
  · exact .inl rfl
  · exact runFrom_sr hrun

theorem mainLoopTurn_sr {s t : State} (h : mainLoopTurn s = .next t) : SrKeptOrWritten s t := by
  obtain ⟨m, -, hrun⟩ | ⟨-, -, rfl⟩ | ⟨-, d, ps, i, -, -, ha, hrun⟩ := mainLoopTurn_next h
  · exact runFrom_sr hrun
  · exact .inl rfl
  · exact (exec_mainLoop_sr ha hrun :)

theorem microTurn_sr {s t : State} (h : microTurn s = .next t) : SrKeptOrWritten s t := by
  obtain ⟨m, -, hm⟩ | ⟨-, -, rfl⟩ | ⟨-, d, ps, i, m, -, -, -, -, rfl⟩ := microTurn_next h
  · exact oneMicro_sr hm
  · exact .inl rfl
  · exact .inl rfl

/-- A deferred run writes SR only as WR's, on a full Inbound (R157). -/
theorem deferredRun_sr {src : Source} {s t : State} (h : deferredRun src s = .next t) :
    t.sr = s.sr ∨ (src = .wr ∧ s.ie.wr = true ∧ s.full .inbound = true ∧ t.sr = s.par.overrun) := by
  obtain ⟨he, hrun⟩ | ⟨-, rfl⟩ := deferredRun_next.1 h
  · cases src with
    | rd =>
      simp only [deferredHandler] at hrun
      split at hrun <;> cases hrun
      exact .inl (readHandler_sr ‹_› :)
    | wr =>
      obtain ⟨hwr, -⟩ := Bool.and_eq_true_iff.1 he
      exact (writeHandler_sr (s := (s.setPend .wr false).drawn) hrun).imp_right fun hover => ⟨rfl, hwr, hover⟩
    | mp => exact .inl (mediaHandler_sr hrun :)
  · exact .inl rfl

/-- The source of a host turn is that of the edge it brings (R155). -/
theorem Turn.source_host_of_decode {d : Desc} {i : Instr} (hd : decode d = .ok i) : (Turn.host d).source = eventSource i := by
  simp [Turn.source, hd, Except.toOption]

/-- Everything a turn can do to SR. -/
theorem takeTurn_sr {turn : Turn} {s t : State} (h : takeTurn turn s = .next t) :
    t.sr = s.sr ∨ (turn.isMainLoop = true ∧ t.trace = .op (.stwr t.sr) .nothing :: s.trace) ∨
    (turn.source = some .wr ∧ s.ie.wr = true ∧ s.full .inbound = true ∧ t.sr = s.par.overrun) := by
  cases turn with
  | mainLoop => exact (mainLoopTurn_sr h).imp_right fun htrace => .inl ⟨rfl, htrace⟩
  | micro => exact (microTurn_sr h).imp_right fun htrace => .inl ⟨rfl, htrace⟩
  | host d =>
    obtain ⟨i, hd, ha, hrun⟩ := issueBy_next.1 h
    cases i with
    | rdstb => exact .inl (execRdstb_sr hrun)
    | wrstb b => exact (execWrstb_sr hrun).imp_right fun hover => .inr ⟨Turn.source_host_of_decode hd, hover⟩
    | _ => cases ha
  | line d =>
    obtain ⟨i, -, ha, hrun⟩ := issueBy_next.1 h
    cases i with
    | mpedge => exact .inl (execMpedge_sr hrun)
    | _ => cases ha
  | deferred src => exact (deferredRun_sr h).imp_right fun ⟨hsrc, hover⟩ => .inr ⟨congrArg some hsrc, hover⟩

/-- Settles O42: a step is one turn, and a turn changes SR only by a completed STWR or by the overrun report. -/
theorem statusRegisterWriters : Obligations.StatusRegisterWriters := by
  intro s t h
  exact (takeTurn_sr (s := { s with turns := s.turns.tail }) h :)

/-! ### Polling a bypassing status -/

/-- STWR of an idle main loop writes SR and ends (R120). -/
theorem exec_stwr {s : State} (hml : s.ml = .idle) (v : Byte) :
    exec (.stwr v) s = .next (complete (.stwr1 v) .nothing (s.setSr v)) :=
  issueAndRun_admitted hml

/-- A host read of a bypassing SR samples it and changes nothing (R130). -/
theorem exec_rdstb_bypass {s : State} (hrd : s.ie.rd = true) (hsr : statusBypass s.sr = true) :
    exec .rdstb s = .next (s.observe (.read s.sr)) := by
  show execRdstb s = _
  have hread : readHandler s = .ok (s.sr, s) := readHandler_ok.2 (.inl ⟨hsr, rfl, rfl⟩)
  exact edge_next.2 (.inl ⟨hrd, .read s.sr, s, answerRead_ok.2 ⟨s.sr, rfl, hread⟩, rfl⟩)

/-- As many host reads as one likes sample a bypassing SR and change nothing else (R29). -/
theorem runOps_rdstb_bypass {s : State} (n : Nat) (hrd : s.ie.rd = true) (hsr : statusBypass s.sr = true) :
    runOps (List.replicate n .rdstb) s = .next { s with trace := List.replicate n (.read s.sr) ++ s.trace } := by
  induction n generalizing s with
  | zero => rfl
  | succ n ih =>
    have htrace : List.replicate n (.read s.sr) ++ (s.observe (.read s.sr)).trace =
        List.replicate (n + 1) (.read s.sr) ++ s.trace := by
      simp [List.replicate_succ']
    calc runOps (List.replicate (n + 1) .rdstb) s
        = runOps (List.replicate n .rdstb) (s.observe (.read s.sr)) := by
          rw [List.replicate_succ, runOps, exec_rdstb_bypass hrd hsr]
      _ = .next { s with trace := List.replicate n (.read s.sr) ++ (s.observe (.read s.sr)).trace } :=
          ih (s := s.observe (.read s.sr)) hrd hsr
      _ = _ := by rw [htrace]

/-- Settles O59: the STWR leaves the intermediate value in SR, whose bit 7 is set, and every read then takes the bypass. -/
theorem commandStartIsPolled : Obligations.CommandStartIsPolled := by
  rintro s n ⟨-, -, -, -, hbypass⟩ hml hrd
  exact ⟨_, exec_stwr hml s.par.intermediate, _,
    runOps_rdstb_bypass (s := complete (.stwr1 s.par.intermediate) .nothing (s.setSr s.par.intermediate)) n hrd hbypass,
    rfl, rfl, rfl⟩

/-- Settles O34: the issue runs nothing while ML is inside an operation. -/
theorem busyMainLoopIssuesNothing : Obligations.BusyMainLoopIssuesNothing := by
  intro s m i hml ha
  rw [exec_mainLoop ha]
  exact issueAndRun_busy hml

/-! ### Reset -/

/-- The least width `Config.params` starts from holds every index of a channel (R6). -/
theorem index_fits_clog {n m : Nat} (slack : Nat) (h : n ≤ m) : n + 1 + 1 ≤ 2 ^ (Nat.clog 2 (m + 2) + slack) :=
  calc n + 1 + 1 ≤ m + 2 := by omega
    _ ≤ 2 ^ Nat.clog 2 (m + 2) := Nat.le_pow_clog (by decide) _
    _ ≤ 2 ^ (Nat.clog 2 (m + 2) + slack) := Nat.pow_le_pow_right (by decide) (Nat.le_add_right _ _)

/-- `STATUS_INTERMEDIATE` has bit 7 set (R6). -/
theorem params_intermediate_bit7 : Config.params.intermediate.getLsbD 7 = true := by
  show (1#1 ++ Config.intermediateCode : BitVec (1 + 7)).getLsbD 7 = true
  rw [BitVec.getLsbD_append]
  rfl

/-- Every value of the opaque constants meets the constraints of R6. -/
theorem params_wf : Config.params.wf :=
  ⟨Nat.succ_pos _, Nat.succ_pos _, index_fits_clog _ (Nat.le_max_left _ _), index_fits_clog _ (Nat.le_max_right _ _),
    params_intermediate_bit7⟩

theorem reset_cells (c : Channel) : State.reset.chan c = Chan.reset := by cases c <;> rfl

theorem reset_head (c : Channel) : State.reset.head c = 0 := congrArg Chan.head (reset_cells c)

theorem reset_tail (c : Channel) : State.reset.tail c = 0 := congrArg Chan.tail (reset_cells c)

theorem reset_slot (c : Channel) (i : Nat) : State.reset.slot c i = none :=
  congrArg (fun ch : Chan => Memory.read ch.buf i) (reset_cells c)

theorem reset_indicesOk (c : Channel) : State.reset.indicesOk c := by
  simp [State.indicesOk, reset_head, reset_tail]

theorem reset_empty (c : Channel) : State.reset.empty c = true := by
  simp [State.empty, emptyOfIdx, reset_head, reset_tail]

theorem reset_size (c : Channel) : State.reset.size c = 0 := (State.empty_iff_size (reset_indicesOk c)).1 (reset_empty c)

theorem reset_cap_pos (c : Channel) : 0 < State.reset.cap c := by cases c <;> exact Nat.succ_pos _

theorem reset_full (c : Channel) : State.reset.full c = false :=
  State.not_full_of_size_lt (reset_indicesOk c) (by rw [reset_size]; exact reset_cap_pos c)

theorem reset_chanOk (c : Channel) : State.reset.chanOk c := by
  refine ⟨reset_indicesOk c, ⟨Memory.wf_reset c, ?_⟩, .inr ?_⟩
  · simp [reset_cells, Chan.reset]
  · simp [State.liveWritten, reset_size]

/-- Settles O35: the channels are empty at index 0, ML is idle and nothing is pending. -/
theorem invariantAtReset : Obligations.InvariantAtReset :=
  State.inv_iff.2 ⟨params_wf, reset_chanOk, trivial, fun _ => rfl⟩

/-- Settles O60, cell by cell. -/
theorem resetState : Obligations.ResetState := fun c src i =>
  ⟨reset_head c, reset_tail c, reset_empty c, reset_full c, reset_size c, reset_slot c i, by cases src <;> rfl,
    by cases src <;> rfl, rfl⟩

/-- Under R6 an index of the array fits an index cell. -/
theorem State.len_le_of_wf {s : State} (h : s.par.wf) (c : Channel) : s.len c ≤ 2 ^ s.par.idxW := by
  obtain ⟨-, -, hin, hout, -⟩ := h
  cases c with
  | inbound => exact hin
  | outbound => exact hout

/-- Settles O37: the invariant bounds both indices by `M_c`, which fits an index cell. -/
theorem indicesFitTheirCells : Obligations.IndicesFitTheirCells := by
  intro s c hs
  obtain ⟨hh, ht⟩ := hs.indicesOk c
  have hlen := State.len_le_of_wf (State.inv_iff.1 hs).1 c
  exact ⟨Nat.le_of_lt_succ hh, Nat.le_of_lt_succ ht, s.size_le_cap c, Nat.lt_of_lt_of_le hh hlen, Nat.lt_of_lt_of_le ht hlen⟩

end Sys2Proof.Machine

/-!
SUPPORT. An operation done micro-step by micro-step refines its uninterrupted run (20_memory.md R59, R66; 30_encoding.md R88): a
micro-step speaks of the cells only, not of whose turn it is, and the choices it leaves open do not show in the state an operation
ends in.
-/

namespace Sys2Proof.Machine

/-! ### Steps of a run -/

/-- A run takes its first step. -/
theorem run_succ {s t : State} {n : Nat} (h : step s = .next t) :
    Host.Core.run Sys2Proof.core (n + 1) s = Host.Core.run Sys2Proof.core n t := by
  have h' : Sys2Proof.core.step s = .next t := h
  simp only [Host.Core.run, h']

theorem run_three {s t u v : State} (h1 : step s = .next t) (h2 : step t = .next u) (h3 : step u = .next v) :
    Host.Core.run Sys2Proof.core 3 s = .next v :=
  (run_succ h1).trans ((run_succ h2).trans (run_succ (n := 0) h3))

/-- An admission test reads the enable bits only (R106, R107). -/
theorem admissionOf_congr {s t : State} (i : Instr) (h : t.ie = s.ie) : admissionOf i t = admissionOf i s := by
  cases i with
  | pop c => cases c <;> simp [admissionOf, admitPop, State.popAdmitted, h]
  | clear c => cases c <;> simp [admissionOf, admitClear, State.sourcesMasked, h]
  | _ => rfl

/-- A micro turn of an idle main loop issues its next operation (R33). -/
theorem step_micro_issue {s : State} {d : Desc} {i : Instr} {m : Micro} {ps : List Desc} {ts : List Turn}
    (hturns : s.turns = .micro :: ts) (hml : s.ml = .idle) (hprog : s.prog = d :: ps) (hd : decode d = .ok i)
    (ha : i.agent = .mainLoop) (hadm : admissionOf i s = .admitted m) :
    step s = .next (({ s with prog := ps, turns := ts } : State).setMl (.inOp m)) := by
  rw [step_of_turns hturns]
  simp only [takeTurn, microTurn, hml, hprog]
  exact (issueBy_of_decode hd ha _).trans
    (issueOnly_next.2 ⟨m, (admissionOf_congr (s := s) i rfl).trans hadm, rfl⟩)

/-! ### A micro-step speaks of the cells only -/

/-- The same cells with another control state, draw counter and schedule. -/
def State.staged (s : State) (ml : MainLoop) (draws : Nat) (turns : List Turn) : State :=
  { s with ml := ml, draws := draws, turns := turns }

/-- A progress with its state changed. -/
def Progress.map (f : State → State) : Progress → Progress
  | .hold => .hold
  | .go m t => .go m (f t)
  | .done res t => .done res (f t)
  | .fault e => .fault e

@[simp] theorem State.staged_head (s : State) (ml : MainLoop) (k : Nat) (ts : List Turn) (c : Channel) :
    (s.staged ml k ts).head c = s.head c := rfl

@[simp] theorem State.staged_tail (s : State) (ml : MainLoop) (k : Nat) (ts : List Turn) (c : Channel) :
    (s.staged ml k ts).tail c = s.tail c := rfl

@[simp] theorem State.staged_advIdx (s : State) (ml : MainLoop) (k : Nat) (ts : List Turn) (c : Channel) (i n : Nat) :
    (s.staged ml k ts).advIdx c i n = s.advIdx c i n := rfl

@[simp] theorem slotRead_staged (c : Channel) (i : Nat) (s : State) (ml : MainLoop) (k : Nat) (ts : List Turn) :
    slotRead c i (s.staged ml k ts) = slotRead c i s := rfl

@[simp] theorem slotWrite_staged (c : Channel) (i : Nat) (b : Byte) (s : State) (ml : MainLoop) (k : Nat) (ts : List Turn) :
    slotWrite c i b (s.staged ml k ts) = (slotWrite c i b s).map (·.staged ml k ts) := by
  unfold slotWrite
  exact (apply_ite (Except.map (·.staged ml k ts)) (i < s.len c) (.ok (s.withSlot c i b)) (.error (Fault.noSuchSlot c i))).symm

theorem microBlock2_staged (choice : Nat) (c : Channel) (bytes : List Byte) (t written published : Nat) (s : State)
    (ml : MainLoop) (k : Nat) (ts : List Turn) :
    microBlock2 choice c bytes t written published (s.staged ml k ts) =
      (microBlock2 choice c bytes t written published s).map (·.staged ml k ts) := by
  unfold microBlock2
  split
  · rfl
  · split
    · rw [State.staged_advIdx, slotWrite_staged]
      cases slotWrite c (s.advIdx c t written) (blockByte bytes written) s <;> rfl
    · rfl

/-- A micro-step neither reads nor writes the control state, the draw counter or the schedule. -/
theorem micro_staged (choice : Nat) (m : Micro) (s : State) (ml : MainLoop) (k : Nat) (ts : List Turn) :
    micro choice m (s.staged ml k ts) = (micro choice m s).map (·.staged ml k ts) := by
  cases m with
  | push1 c b => exact (apply_ite (Progress.map (·.staged ml k ts)) (s.full c = true) .hold (.go _ s)).symm
  | push2 c b =>
    simp only [micro, microPush2, State.staged_tail, slotWrite_staged]
    cases slotWrite c (s.tail c) b s <;> rfl
  | pop1 c => exact (apply_ite (Progress.map (·.staged ml k ts)) (s.empty c = true) .hold (.go _ s)).symm
  | pop2 c =>
    simp only [micro, microPop2, State.staged_head, slotRead_staged]
    cases slotRead c (s.head c) s <;> rfl
  | block1 c bytes =>
    exact (apply_ite (Progress.map (·.staged ml k ts)) (s.free c < blockLength bytes) .hold (.go _ s)).symm
  | block2 c bytes t written published => exact microBlock2_staged choice c bytes t written published s ml k ts
  | query1 q c => exact (apply_ite (Progress.map (·.staged ml k ts)) (choice % 2 = 0) (.go _ s) (.go _ s)).symm
  | push3 _ _ | pop3 _ _ | queryTail _ _ _ | queryHead _ _ _ | clear1 _ | clear2 _ | stwr1 _ | irqen1 _ | irqdis1 _ => rfl

/-- A micro turn inside an operation does the micro-step that is due, with a fresh draw (R33). -/
theorem step_micro {s : State} {m : Micro} {ts : List Turn} (hturns : s.turns = .micro :: ts) (hml : s.ml = .inOp m) :
    step s = settle m { s with turns := ts }
      ((micro (Config.freeChoice s.draws) m s).map (·.staged (.inOp m) (s.draws + 1) ts)) := by
  rw [step_of_turns hturns, ← micro_staged, ← hml]
  simp only [takeTurn, microTurn, hml]
  rfl

/-- A micro turn whose micro-step goes on. -/
theorem step_micro_go {s t : State} {m m' : Micro} {ts : List Turn} (hturns : s.turns = .micro :: ts) (hml : s.ml = .inOp m)
    (hp : micro (Config.freeChoice s.draws) m s = .go m' t) : step s = .next (t.staged (.inOp m') (s.draws + 1) ts) := by
  rw [step_micro hturns hml, hp]
  rfl

/-- A micro turn whose micro-step ends the operation. -/
theorem step_micro_done {s t : State} {m : Micro} {res : Res} {ts : List Turn} (hturns : s.turns = .micro :: ts)
    (hml : s.ml = .inOp m) (hp : micro (Config.freeChoice s.draws) m s = .done res t) :
    step s = .next ((complete m res t).staged .idle (s.draws + 1) ts) := by
  rw [step_micro hturns hml, hp]
  rfl

/-! ### What a run of micro turns ends in -/

/-- From micro-step `m` on and draw `k` on, some number of micro turns end in `u`, but for the draws taken. -/
def MicroEnds (u : State) (k : Nat) (m : Micro) (s : State) : Prop :=
  ∃ n, ∀ ts, ∃ k', Host.Core.run Sys2Proof.core n (s.staged (.inOp m) k (List.replicate n .micro ++ ts)) =
    .next { u with draws := k', turns := ts }

theorem MicroEnds.done {k : Nat} {m : Micro} {s t : State} {res : Res}
    (hp : micro (Config.freeChoice k) m s = .done res t) : MicroEnds (complete m res t) k m s := by
  refine ⟨1, fun ts => ⟨k + 1, ?_⟩⟩
  have hstep := step_micro_done (s := s.staged (.inOp m) k (.micro :: ts)) rfl rfl
    ((micro_staged _ m s _ _ _).trans (congrArg _ hp))
  exact run_succ (n := 0) hstep

theorem MicroEnds.go {k : Nat} {m m' : Micro} {s t u : State}
    (hp : micro (Config.freeChoice k) m s = .go m' t) (h : MicroEnds u (k + 1) m' t) : MicroEnds u k m s := by
  obtain ⟨n, hn⟩ := h
  refine ⟨n + 1, fun ts => ?_⟩
  obtain ⟨k', hk'⟩ := hn ts
  have hstep := step_micro_go (s := s.staged (.inOp m) k (.micro :: (List.replicate n .micro ++ ts))) rfl rfl
    ((micro_staged _ m s _ _ _).trans (congrArg _ hp))
  exact ⟨k', (run_succ hstep).trans hk'⟩

/-! ### What an uninterrupted run ends in -/

/-- With no early publication and `head` read first, the micro-steps from `m` on end the operation in `u`. -/
inductive RunEnds (u : State) : Micro → State → Prop where
  | done {m : Micro} {s t : State} {res : Res} (hp : micro 0 m s = .done res t) (hu : complete m res t = u) : RunEnds u m s
  | go {m m' : Micro} {s t : State} (hp : micro 0 m s = .go m' t) (h : RunEnds u m' t) : RunEnds u m s

/-- An uninterrupted run that leaves the main loop idle has ended its operation. -/
theorem runEnds_of_runMicros {fuel : Nat} {m : Micro} {s u : State} (h : runMicros fuel m s = .next u) (hu : u.ml = .idle) :
    RunEnds u m s := by
  induction fuel generalizing m s with
  | zero =>
    obtain ⟨-, rfl⟩ | ⟨m', t, -, rfl⟩ | ⟨res, t, hp, rfl⟩ := settle_next.1 h
    · cases hu
    · cases hu
    · exact .done hp rfl
  | succ fuel ih =>
    simp only [runMicros] at h
    split at h
    next m' t hp => exact .go hp (ih h)
    next => cases h; cases hu
    next res t hp => cases h; exact .done hp rfl
    next => cases h

/-! ### The choices left open -/

/-- Only a block's publications and a query's first read are left open (R102, R103). -/
theorem micro_choice (choice : Nat) (m : Micro) (s : State) :
    (∃ c bytes t written published, m = .block2 c bytes t written published) ∨ (∃ q c, m = .query1 q c) ∨
    micro choice m s = micro 0 m s := by
  cases m with
  | block2 c bytes t written published => exact .inl ⟨c, bytes, t, written, published, rfl⟩
  | query1 q c => exact .inr (.inl ⟨q, c, rfl⟩)
  | _ => exact .inr (.inr rfl)

/-- A query reads the same two cells in either order (R103). -/
theorem microEnds_query {u s : State} {q : Query} {c : Channel} (h : RunEnds u (.query1 q c) s) (k : Nat) :
    MicroEnds u k (.query1 q c) s := by
  have hu : u = complete (.query1 q c) (queryAnswer q c (s.head c) (s.tail c) s) s := by
    cases h with
    | done hp _ => cases hp
    | go hp h =>
      cases hp
      cases h with
      | done hp hu => cases hp; exact hu.symm
      | go hp _ => cases hp
  subst hu
  by_cases hk : Config.freeChoice k % 2 = 0
  · exact .go (if_pos hk) (.done rfl)
  · exact .go (if_neg hk) (.done rfl)

section Block

variable {u s : State} {c : Channel} {bytes : List Byte} {t written published choice : Nat}

/-- A choice that names an early publication which PUSHBLOCK may make (R102). -/
abbrev EarlyPublication (choice : Nat) (bytes : List Byte) (written published : Nat) : Prop :=
  published < choice ∧ choice ≤ written ∧ choice < blockLength bytes

theorem not_earlyPublication_zero : ¬ EarlyPublication 0 bytes written published := fun h => Nat.not_lt_zero _ h.1

theorem micro_block_publish (h : EarlyPublication choice bytes written published) :
    micro choice (.block2 c bytes t written published) s =
      .go (.block2 c bytes t written choice) (s.setTail c (s.advIdx c t choice)) :=
  if_pos h

theorem micro_block_store (h : ¬ EarlyPublication choice bytes written published) (hw : written < blockLength bytes) :
    micro choice (.block2 c bytes t written published) s =
      .go (.block2 c bytes t (written + 1) published) (s.withSlot c (s.advIdx c t written) (blockByte bytes written)) := by
  rw [micro, microBlock2, if_neg h, if_pos hw, slotWrite_ok.2 ⟨s.advIdx_lt c t written, rfl⟩]

theorem micro_block_end (h : ¬ EarlyPublication choice bytes written published) (hw : ¬ written < blockLength bytes) :
    micro choice (.block2 c bytes t written published) s =
      .done .nothing (s.setTail c (s.advIdx c t (blockLength bytes))) := by
  rw [micro, microBlock2, if_neg h, if_neg hw]

/-- An uninterrupted block stores its next byte while there is one (R102). -/
theorem RunEnds.block_store (h : RunEnds u (.block2 c bytes t written published) s) (hw : written < blockLength bytes) :
    RunEnds u (.block2 c bytes t (written + 1) published) (s.withSlot c (s.advIdx c t written) (blockByte bytes written)) := by
  cases h with
  | done hp _ => rw [micro_block_store not_earlyPublication_zero hw] at hp; cases hp
  | go hp h => rw [micro_block_store not_earlyPublication_zero hw] at hp; cases hp; exact h

/-- An uninterrupted block whose bytes are all stored publishes them and ends (R102). -/
theorem RunEnds.block_end (h : RunEnds u (.block2 c bytes t written published) s) (hw : ¬ written < blockLength bytes) :
    u = complete (.block2 c bytes t written published) .nothing (s.setTail c (s.advIdx c t (blockLength bytes))) := by
  cases h with
  | done hp hu => rw [micro_block_end not_earlyPublication_zero hw] at hp; cases hp; exact hu.symm
  | go hp _ => rw [micro_block_end not_earlyPublication_zero hw] at hp; cases hp

end Block

theorem State.setTail_setTail (s : State) (c : Channel) (i j : Nat) : (s.setTail c i).setTail c j = s.setTail c j := by
  cases c <;> rfl

theorem State.setTail_self (s : State) (c : Channel) : s.setTail c (s.tail c) = s := by cases c <;> rfl

theorem State.withSlot_setTail (s : State) (c : Channel) (i j : Nat) (b : Byte) :
    (s.setTail c j).withSlot c i b = (s.withSlot c i b).setTail c j := by
  cases c <;> rfl

/-- A block that has published early, and has another `tail` for it, ends as one that has not, since its last write is that of
`tail` (R102). Every micro-step stores one more byte or publishes more of the stored ones. -/
theorem microEnds_block {u s : State} {c : Channel} {bytes : List Byte} {t written published : Nat} (early tl k : Nat)
    (h : RunEnds u (.block2 c bytes t written published) s) :
    MicroEnds u k (.block2 c bytes t written early) (s.setTail c tl) := by
  by_cases hearly : EarlyPublication (Config.freeChoice k) bytes written early
  · have ih := microEnds_block (Config.freeChoice k) (s.advIdx c t (Config.freeChoice k)) (k + 1) h
    refine .go (micro_block_publish hearly) ?_
    rwa [State.setTail_setTail]
  · by_cases hw : written < blockLength bytes
    · have ih := microEnds_block early tl (k + 1) (h.block_store hw)
      refine .go (micro_block_store hearly hw) ?_
      rwa [State.withSlot_setTail]
    · have hdone := MicroEnds.done (micro_block_end (s := s.setTail c tl) (c := c) (t := t) hearly hw)
      rw [State.setTail_setTail] at hdone
      rw [h.block_end hw]
      exact hdone
termination_by (blockLength bytes - written) + (blockLength bytes - early)

/-! ### The micro-steps refine the run -/

/-- A micro-step that leaves nothing open may be taken to draw 0. -/
theorem RunEnds.microEnds_of_choice {u s : State} {m : Micro} {k : Nat} (h : RunEnds u m s)
    (hfree : micro (Config.freeChoice k) m s = micro 0 m s → MicroEnds u k m s) : MicroEnds u k m s := by
  obtain ⟨c, bytes, t, written, published, rfl⟩ | ⟨q, c, rfl⟩ | heq := micro_choice (Config.freeChoice k) m s
  · rw [← s.setTail_self c]
    exact microEnds_block published (s.tail c) k h
  · exact microEnds_query h k
  · exact hfree heq

/-- The micro-steps end where the uninterrupted run does, whatever is drawn. -/
theorem RunEnds.microEnds {u s : State} {m : Micro} (h : RunEnds u m s) (k : Nat) : MicroEnds u k m s := by
  induction h generalizing k with
  | done hp hu =>
    subst hu
    exact (RunEnds.done hp rfl).microEnds_of_choice fun heq => .done (heq.trans hp)
  | go hp h ih => exact (RunEnds.go hp h).microEnds_of_choice fun heq => .go (heq.trans hp) (ih (k + 1))

/-- Settles O52: the issue admits the micro-step the uninterrupted run starts from, and from there the micro-steps end where that
run does. -/
theorem microStepsRefineOperation : Obligations.MicroStepsRefineOperation := by
  intro s u d i ps hml hprog hd ha hexec hidle
  rw [exec_mainLoop ha] at hexec
  obtain ⟨⟨m, hbusy⟩, -⟩ | ⟨-, m, hadm, hrun⟩ := issueAndRun_next.1 hexec
  · rw [show s.ml = .inOp m from hbusy] at hml
    cases hml
  · obtain ⟨n, hn⟩ := (runEnds_of_runMicros hrun hidle).microEnds s.draws
    refine ⟨n + 1, fun ts => ?_⟩
    obtain ⟨k, hk⟩ := hn ts
    refine ⟨k, (run_succ ?_).trans hk⟩
    exact step_micro_issue (s := { s with turns := .micro :: (List.replicate n .micro ++ ts) }) rfl hml hprog hd ha
      ((admissionOf_congr i rfl).trans hadm)

end Sys2Proof.Machine

/-!
SUPPORT. The arithmetic of indices and of occupancy (20_memory.md R51, R52), what a handler does to the bounds the main loop has
read (R69), and what a handler sees of an operation under way (R60, R61).
-/

namespace Sys2Proof.Machine

/-! ### Index arithmetic -/

/-- Within `0 .. N_c` an advance wraps at most once (R51). -/
theorem State.advIdx_of_le (s : State) (c : Channel) {i n : Nat} (hi : i ≤ s.cap c) (hn : n ≤ s.cap c) :
    s.advIdx c i n = if i + n ≤ s.cap c then i + n else i + n - (s.cap c + 1) := by
  show (i + n) % (s.cap c + 1) = _
  split
  next h => exact Nat.mod_eq_of_lt (Nat.lt_succ_of_le h)
  next h => rw [Nat.mod_eq_sub_mod (by omega), Nat.mod_eq_of_lt (by omega)]

/-- The next index wraps at the top one (R51). -/
theorem State.nextIdx_of_le (s : State) (c : Channel) {i : Nat} (hi : i ≤ s.cap c) :
    s.nextIdx c i = if i = s.cap c then 0 else i + 1 := by
  show (i + 1) % (s.cap c + 1) = _
  split
  next h => rw [h, Nat.mod_self]
  next h => exact Nat.mod_eq_of_lt (by omega)

/-- Settles O47: each computation's value on `0 .. N_c`, and its range. -/
theorem indexArithmeticWraps : Obligations.IndexArithmeticWraps := fun s c i n hi hn =>
  ⟨s.nextIdx_of_le c hi, rfl, s.advIdx_of_le c hi hn, Nat.le_of_lt_succ (s.nextIdx_lt c i),
    Nat.le_of_lt_succ (s.advIdx_lt c i n)⟩

/-! ### Occupancy -/

/-- `distance` is the non-negative remainder of the difference (R8, R52). -/
theorem distance_eq_emod {m : Nat} (hm : 0 < m) (h t : Nat) : (distance m h t : Int) = ((t : Int) - h) % m := by
  have hle : h % m ≤ m := (Nat.mod_lt h hm).le
  have hdiv : (m : Int) * (h / m : Nat) + (h % m : Nat) = h := by exact_mod_cast Nat.div_add_mod h m
  calc (distance m h t : Int) = ((t : Int) + (m - (h % m : Nat))) % m := by
        rw [distance, Int.natCast_mod, Int.natCast_add, Int.natCast_sub hle]
    _ = ((t : Int) - h + m * (1 + (h / m : Nat))) % m := by
        congr 1
        linear_combination -hdiv
    _ = ((t : Int) - h) % m := Int.add_mul_emod_self_left _ _ _

/-- The size is `(tail - head) mod M_c` (R52). -/
theorem State.size_eq_emod (s : State) (c : Channel) :
    (s.size c : Int) = ((s.tail c : Int) - (s.head c : Int)) % ((s.cap c : Int) + 1) :=
  distance_eq_emod (s.len_pos c) (s.head c) (s.tail c)

theorem State.size_add_free (s : State) (c : Channel) : s.size c + s.free c = s.cap c :=
  Nat.add_sub_of_le (s.size_le_cap c)

/-- Index cells at zero, as CLEAR leaves them, hold nothing (R52, R106). -/
theorem State.size_setHead_setTail_zero (s : State) (c : Channel) : ((s.setHead c 0).setTail c 0).size c = 0 := by
  have hdist := distance_of_le (s.len_pos c) (Nat.le_refl 0)
  simpa [State.size, State.sizeOfIdx] using hdist

/-- Settles O48: each law is the one lemma about the size after that write. -/
theorem occupancyLaws : Obligations.OccupancyLaws := by
  intro s c hi _
  have hsum := s.size_add_free c
  exact ⟨s.size_eq_emod c, hsum, State.empty_iff_size hi, State.full_iff_size hi,
    fun hf => State.size_setTail_advIdx hi (State.size_lt_cap_of_not_full hi hf),
    fun he => State.size_setHead_nextIdx hi he,
    fun n hn => State.size_setTail_advIdx hi (by omega), s.size_setHead_setTail_zero c⟩

/-! ### What a turn outside the main loop can do -/

/-- At most one handler runs, its source enabled (R156). -/
inductive HandlerRun (s : State) : State → Prop where
  | none : HandlerRun s s
  | read {v : Byte} {t : State} (hrd : s.ie.rd = true) (h : readHandler s = .ok (v, t)) : HandlerRun s t
  | write {b : Byte} {t : State} (hwr : s.ie.wr = true) (h : writeHandler b s = .ok t) : HandlerRun s t
  | media {t : State} (hmp : s.ie.mp = true) (h : mediaHandler s = .ok t) : HandlerRun s t

/-- Pending bits and draws may change, at most one handler runs, and the trace may show the event (R156, R157). -/
def HandlerTurn (s t : State) : Prop :=
  ∃ pend draws u, HandlerRun { s with pend := pend, draws := draws } u ∧ t = { u with trace := t.trace }

theorem HandlerTurn.refl (s : State) : HandlerTurn s s := ⟨s.pend, s.draws, s, .none, rfl⟩

theorem edge_handlerTurn {src : Source} {handler : State → Except Fault (Obs × State)} {masked : State → Obs} {s t : State}
    (hrun : s.enabled src = true → ∀ o u, handler s = .ok (o, u) → HandlerRun s u) (h : edge src handler masked s = .next t) :
    HandlerTurn s t := by
  obtain ⟨he, o, u, hu, rfl⟩ | ⟨-, rfl⟩ := edge_next.1 h
  · exact ⟨s.pend, s.draws, u, hrun he o u hu, rfl⟩
  · exact ⟨_, _, maskedEdge src s, .none, rfl⟩

theorem execRdstb_handlerTurn {s t : State} (h : execRdstb s = .next t) : HandlerTurn s t := by
  refine edge_handlerTurn (fun hrd o u hu => ?_) h
  obtain ⟨v, -, hv⟩ := answerRead_ok.1 hu
  exact .read hrd hv

theorem execWrstb_handlerTurn {b : Byte} {s t : State} (h : execWrstb b s = .next t) : HandlerTurn s t :=
  edge_handlerTurn (src := .wr) (fun hwr _ _ hu => .write hwr (answerWrite_ok.1 hu).2) h

theorem execMpedge_handlerTurn {s t : State} (h : execMpedge s = .next t) : HandlerTurn s t :=
  edge_handlerTurn (src := .mp) (fun hmp _ _ hu => .media hmp (answerMedia_ok.1 hu).2) h

theorem exec_event_handlerTurn {i : Instr} {s t : State} (ha : i.agent ≠ .mainLoop) (h : exec i s = .next t) :
    HandlerTurn s t := by
  cases i with
  | rdstb => exact execRdstb_handlerTurn h
  | wrstb b => exact execWrstb_handlerTurn h
  | mpedge => exact execMpedge_handlerTurn h
  | _ => exact absurd rfl ha

theorem deferredRun_handlerTurn {src : Source} {s t : State} (h : deferredRun src s = .next t) : HandlerTurn s t := by
  obtain ⟨he, hrun⟩ | ⟨-, rfl⟩ := deferredRun_next.1 h
  · obtain ⟨hie, -⟩ := Bool.and_eq_true_iff.1 he
    cases src with
    | rd =>
      simp only [deferredHandler] at hrun
      split at hrun <;> cases hrun
      exact ⟨(s.setPend .rd false).pend, s.draws, t, .read hie ‹_›, rfl⟩
    | wr => exact ⟨(s.setPend .wr false).pend, s.draws + 1, t, .write hie hrun, rfl⟩
    | mp => exact ⟨(s.setPend .mp false).pend, s.draws, t, .media hie hrun, rfl⟩
  · exact .refl _

/-- Everything a turn outside the main loop can do: it is an event or a deferred run. -/
theorem takeTurn_handlerTurn {turn : Turn} {s t : State} (hturn : turn.isMainLoop = false) (h : takeTurn turn s = .next t) :
    HandlerTurn s t := by
  cases turn with
  | mainLoop | micro => cases hturn
  | host d | line d =>
    obtain ⟨i, -, ha, hrun⟩ := issueBy_next.1 h
    exact exec_event_handlerTurn (by simp [ha]) hrun
  | deferred src => exact deferredRun_handlerTurn h

/-! ### Handlers raise the bounds of the main loop's queries -/

/-- Outbound has no less free space than before, Inbound no fewer bytes (R69). -/
def RaisesBounds (s t : State) : Prop := s.free .outbound ≤ t.free .outbound ∧ s.size .inbound ≤ t.size .inbound

theorem RaisesBounds.refl (s : State) : RaisesBounds s s := ⟨Nat.le_refl _, Nat.le_refl _⟩

/-- The read-strobe handler drops a byte of Outbound at most (R130). -/
theorem readHandler_raisesBounds {s t : State} {v : Byte} (hi : s.indicesOk .outbound) (h : readHandler s = .ok (v, t)) :
    RaisesBounds s t := by
  obtain ⟨-, -, rfl⟩ | ⟨-, -, -, rfl⟩ | ⟨-, he, h⟩ := readHandler_ok.1 h
  · exact .refl _
  · exact .refl _
  · obtain ⟨-, -, rfl⟩ := dequeue_ok.1 h
    have hsize := State.size_setHead_nextIdx hi he
    refine ⟨?_, Nat.le_refl (s.size .inbound)⟩
    simp only [State.free, State.setHead_cap]
    omega

/-- A store at `tail` and its publication add one byte (R52). -/
theorem State.size_push {s : State} {c : Channel} (hi : s.indicesOk c) (hf : s.full c = false) (b : Byte) :
    ((s.withSlot c (s.tail c) b).setTail c (s.nextIdx c (s.tail c))).size c = s.size c + 1 := by
  have hpub := State.size_setTail_advIdx (s := s.withSlot c (s.tail c) b) (n := 1) (State.indicesOk_withSlot hi)
    (by simpa using State.size_lt_cap_of_not_full hi hf)
  rwa [State.withSlot_tail, State.withSlot_size] at hpub

/-- A handler's push into Inbound leaves Outbound alone. -/
theorem enqueue_inbound_raisesBounds {s t : State} {b : Byte} (hi : s.indicesOk .inbound) (hf : s.full .inbound = false)
    (h : enqueue .inbound b s = .ok t) : RaisesBounds s t := by
  obtain ⟨-, rfl⟩ := enqueue_ok.1 h
  refine ⟨Nat.le_refl (s.free .outbound), ?_⟩
  rw [State.size_push hi hf]
  exact Nat.le_succ _

theorem writeHandler_raisesBounds {s t : State} {b : Byte} (hi : s.indicesOk .inbound) (h : writeHandler b s = .ok t) :
    RaisesBounds s t := by
  obtain ⟨-, rfl⟩ | ⟨hf, h⟩ := writeHandler_ok.1 h
  · exact RaisesBounds.refl s
  · exact enqueue_inbound_raisesBounds hi hf h

theorem mediaHandler_raisesBounds {s t : State} (hi : s.indicesOk .inbound) (h : mediaHandler s = .ok t) :
    RaisesBounds s t := by
  obtain ⟨hf, u, hu, rfl⟩ := mediaHandler_ok.1 h
  exact (enqueue_inbound_raisesBounds hi hf hu :)

theorem HandlerRun.raisesBounds {s t : State} (hi : ∀ c, s.indicesOk c) (h : HandlerRun s t) : RaisesBounds s t := by
  cases h with
  | none => exact .refl s
  | read _ h => exact readHandler_raisesBounds (hi _) h
  | write _ h => exact writeHandler_raisesBounds (hi _) h
  | media _ h => exact mediaHandler_raisesBounds (hi _) h

/-- Settles O46: a turn outside the main loop runs one handler at most, which drops from Outbound or pushes into Inbound. -/
theorem handlersOnlyRaiseBounds : Obligations.HandlersOnlyRaiseBounds := by
  intro s t hs hturn h
  obtain ⟨p, k, u, hrun, ht⟩ := takeTurn_handlerTurn hturn h
  rw [ht]
  exact (HandlerRun.raisesBounds (s := { s with pend := p, draws := k, turns := s.turns.tail }) hs.indicesOk hrun :)

/-! ### What a handler sees of an operation under way -/

/-- A host read of an empty Outbound with a terminal SR drives the underrun code and changes nothing (R130). -/
theorem exec_rdstb_empty {s : State} (hrd : s.ie.rd = true) (hsr : statusBypass s.sr = false) (he : s.empty .outbound = true) :
    exec .rdstb s = .next (s.observe (.read s.par.underrun)) := by
  show execRdstb s = _
  have hread : readHandler s = .ok (s.par.underrun, s) := readHandler_ok.2 (.inr (.inl ⟨hsr, he, rfl, rfl⟩))
  exact edge_next.2 (.inl ⟨hrd, _, s, answerRead_ok.2 ⟨_, rfl, hread⟩, rfl⟩)

/-- A host write on a full Inbound puts the overrun code into SR (R131). -/
theorem exec_wrstb_full {s : State} (hwr : s.ie.wr = true) (hf : s.full .inbound = true) (b : Byte) :
    exec (.wrstb b) s = .next ((s.setSr s.par.overrun).observe (.write b)) := by
  show execWrstb b s = _
  have hwrite : writeHandler b s = .ok (s.setSr s.par.overrun) := writeHandler_ok.2 (.inl ⟨hf, rfl⟩)
  exact edge_next.2 (.inl ⟨hwr, _, _, answerWrite_ok.2 ⟨rfl, hwrite⟩, rfl⟩)

theorem decode_encode_rdstb : decode (encode .rdstb) = .ok .rdstb := by decide

theorem decode_encode_wrstb (b : Byte) : decode (encode (.wrstb b)) = .ok (.wrstb b) := by
  simp [encode, decode, decodeWord, decodeByteOnly, Desc.operandCount]

/-- A host turn runs the event it encodes. -/
theorem step_host {s : State} {i : Instr} {ts : List Turn} (hturns : s.turns = .host (encode i) :: ts)
    (hd : decode (encode i) = .ok i) (ha : i.agent = .host) : step s = exec i { s with turns := ts } :=
  (step_of_turns hturns).trans (issueBy_of_decode hd ha _)

theorem step_rdstb_empty {s : State} {ts : List Turn} (hturns : s.turns = .host (encode .rdstb) :: ts) (hrd : s.ie.rd = true)
    (hsr : statusBypass s.sr = false) (he : s.empty .outbound = true) :
    step s = .next (({ s with turns := ts } : State).observe (.read s.par.underrun)) :=
  (step_host hturns decode_encode_rdstb rfl).trans (exec_rdstb_empty (s := { s with turns := ts }) hrd hsr he)

theorem step_wrstb_full {s : State} {b : Byte} {ts : List Turn} (hturns : s.turns = .host (encode (.wrstb b)) :: ts)
    (hwr : s.ie.wr = true) (hf : s.full .inbound = true) :
    step s = .next ((({ s with turns := ts } : State).setSr s.par.overrun).observe (.write b)) :=
  (step_host hturns (decode_encode_wrstb b) rfl).trans (exec_wrstb_full (s := { s with turns := ts }) hwr hf b)

@[simp] theorem State.withSlot_empty (s : State) (c c' : Channel) (i : Nat) (b : Byte) :
    (s.withSlot c i b).empty c' = s.empty c' := by
  simp [State.empty]

/-- Dropping the oldest byte leaves a channel that is not full (R61). -/
theorem State.not_full_setHead_nextIdx {s : State} {c : Channel} (hi : s.indicesOk c) (he : s.empty c = false) :
    (s.setHead c (s.nextIdx c (s.head c))).full c = false := by
  have hsize := State.size_setHead_nextIdx hi he
  have hle := s.size_le_cap c
  refine State.not_full_of_size_lt (State.indicesOk_setHead hi (s.nextIdx_lt c _)) ?_
  rw [State.setHead_cap]
  omega

/-- PUSH 2 stores at `tail` (R100). -/
theorem micro_push2 {s : State} {c : Channel} (hi : s.indicesOk c) (choice : Nat) (b : Byte) :
    micro choice (.push2 c b) s = .go (.push3 c b) (s.withSlot c (s.tail c) b) := by
  rw [micro, microPush2, slotWrite_ok.2 ⟨hi.2, rfl⟩]

/-- POP 2 reads at `head` (R101). -/
theorem micro_pop2 {s : State} {c : Channel} {v : Byte} (hi : s.indicesOk c) (hv : s.slot c (s.head c) = some v)
    (choice : Nat) : micro choice (.pop2 c) s = .go (.pop3 c v) s := by
  rw [micro, microPop2, slotRead_ok.2 ⟨hi.1, hv⟩]

/-- A read between PUSH's slot write and its tail write finds Outbound empty (R60, V90). -/
theorem run_push_read {s : State} {b : Byte} {ts : List Turn} (hs : s.Inv) (hml : s.ml = .inOp (.push2 .outbound b))
    (he : s.empty .outbound = true) (hrd : s.ie.rd = true) (hsr : statusBypass s.sr = false)
    (hturns : s.turns = .micro :: .host (encode .rdstb) :: .micro :: ts) :
    ∃ t, Host.Core.run Sys2Proof.core 3 s = .next t ∧ t.size .outbound = 1 ∧
      t.trace = .op (.push .outbound b) .nothing :: .read s.par.underrun :: s.trace := by
  have hi := hs.indicesOk .outbound
  obtain ⟨-, hf⟩ := hs.microOk_of_ml hml
  have hstore := step_micro_go hturns hml (micro_push2 hi _ b)
  have he' : (s.withSlot .outbound (s.tail .outbound) b).empty .outbound = true := by simpa using he
  refine ⟨_, run_three hstore (step_rdstb_empty rfl hrd hsr he') (step_micro_done rfl rfl rfl), ?_, rfl⟩
  have hsize := State.size_push hi hf b
  rw [(State.empty_iff_size hi).1 he] at hsize
  exact hsize

/-- A write between POP's slot read and its head write finds Inbound full (R61, V91). -/
theorem run_pop_write {s : State} {b v : Byte} {ts : List Turn} (hs : s.Inv) (hml : s.ml = .inOp (.pop2 .inbound))
    (hf : s.full .inbound = true) (hwr : s.ie.wr = true) (hv : s.slot .inbound (s.head .inbound) = some v)
    (hturns : s.turns = .micro :: .host (encode (.wrstb b)) :: .micro :: ts) :
    ∃ t, Host.Core.run Sys2Proof.core 3 s = .next t ∧ t.sr = s.par.overrun ∧ t.full .inbound = false ∧
      t.trace = .op (.pop .inbound) (.byte v) :: .write b :: s.trace := by
  have hi := hs.indicesOk .inbound
  obtain ⟨-, he⟩ := hs.microOk_of_ml hml
  have hread := step_micro_go hturns hml (micro_pop2 hi hv _)
  exact ⟨_, run_three hread (step_wrstb_full rfl hwr hf) (step_micro_done rfl rfl rfl), rfl,
    State.not_full_setHead_nextIdx hi he, rfl⟩

/-- Settles O55: in either run the handler comes before the publication, and so sees the old index. -/
theorem handlerSeesOnlyPublications : Obligations.HandlerSeesOnlyPublications := fun _ _ _ _ hs =>
  ⟨fun hml he hrd hsr hturns => run_push_read hs hml he hrd hsr hturns,
    fun hml hf hwr hv hturns => run_pop_write hs hml hf hwr hv hturns⟩

end Sys2Proof.Machine

/-!
SUPPORT. The encoding (30_encoding.md R82 to R87): a descriptor is its fields, the operations each family of the decoder answers,
the opcode table read field by field, the refusals at issue, and the sequences of R89.
-/

namespace Sys2Proof

/-! ### A descriptor is its fields -/

/-- A word is its three fields (R82). -/
theorem word_eq_fields (w : Word) : w.extractLsb' 12 4 ++ w.extractLsb' 8 4 ++ w.extractLsb' 0 8 = w := by
  have hhigh : w.extractLsb' 12 4 ++ w.extractLsb' 8 4 = w.extractLsb' 8 8 :=
    BitVec.extractLsb'_append_extractLsb'_eq_extractLsb' rfl
  have hall : w.extractLsb' 8 8 ++ w.extractLsb' 0 8 = w.extractLsb' 0 16 :=
    BitVec.extractLsb'_append_extractLsb'_eq_extractLsb' rfl
  rw [hhigh, hall, BitVec.extractLsb'_eq_self]

/-- Two words are equal when their fields are (R82). -/
theorem word_ext_fields {v w : Word} : v = w ↔
    v.extractLsb' 12 4 = w.extractLsb' 12 4 ∧ v.extractLsb' 8 4 = w.extractLsb' 8 4 ∧ v.extractLsb' 0 8 = w.extractLsb' 0 8 := by
  constructor
  · rintro rfl
    exact ⟨rfl, rfl, rfl⟩
  · rintro ⟨hopc, hsel, himm⟩
    rw [← word_eq_fields v, hopc, hsel, himm, word_eq_fields]

/-- The descriptor made from the fields of a descriptor is that descriptor. -/
theorem mkDesc_eq {d : Desc} {opc sel : BitVec 4} {imm : Byte} {operands : List Byte} (hopc : d.opc = opc) (hsel : d.sel = sel)
    (himm : d.imm = imm) (hops : d.operands = operands) : mkDesc opc sel imm operands = d := by
  subst hopc hsel himm hops
  exact congrArg (Desc.mk · d.operands) (word_eq_fields d.word)

theorem Desc.opc_toNat (d : Desc) : d.opc.toNat = d.word.toNat / 4096 := by
  have hword := d.word.isLt
  rw [Desc.opc, BitVec.extractLsb'_toNat, Nat.shiftRight_eq_div_pow]
  omega

theorem Desc.imm_toNat (d : Desc) : d.imm.toNat = d.word.toNat % 256 := by
  rw [Desc.imm, BitVec.extractLsb'_toNat, Nat.shiftRight_zero]

/-- The operand count in numbers: bits 15:12 tell whether there are operand bytes, bits 7:0 how many (R85). -/
theorem Desc.operandCount_eq (d : Desc) : d.operandCount = if d.word.toNat / 4096 = 3 then d.word.toNat % 256 else 0 := by
  have hopc : d.opc = 3#4 ↔ d.word.toNat / 4096 = 3 := by
    rw [← d.opc_toNat, ← BitVec.toNat_inj]
    rfl
  simp only [Desc.operandCount, hopc, d.imm_toNat]

theorem Desc.operandCount_le (d : Desc) : d.operandCount ≤ maxBlock := by
  have himm := d.imm.isLt
  unfold Desc.operandCount maxBlock
  split <;> omega

/-! ### What each family of the decoder answers -/

/-- The selector of a source (R83). -/
def encodeSource : Source → BitVec 4
  | .rd => 0#4
  | .wr => 1#4
  | .mp => 2#4

theorem decodeChannel_ok {sel : BitVec 4} {c : Channel} : decodeChannel sel = .ok c ↔ sel = encodeChannel c := by
  constructor
  · unfold decodeChannel
    split_ifs <;> rintro ⟨⟩ <;> assumption
  · rintro rfl
    exact decodeChannel_encodeChannel c

theorem decodeSource_ok {sel : BitVec 4} {src : Source} : decodeSource sel = .ok src ↔ sel = encodeSource src := by
  constructor
  · unfold decodeSource
    split_ifs <;> rintro ⟨⟩ <;> assumption
  · rintro rfl
    cases src <;> rfl

theorem decodeChannelWith_ok {mk : Channel → Instr} {d : Desc} {i : Instr} :
    decodeChannelWith mk d = .ok i ↔ ∃ c, mk c = i ∧ d.sel = encodeChannel c := by
  simp only [← decodeChannel_ok]
  unfold decodeChannelWith
  cases decodeChannel d.sel <;> simp

theorem decodeChannelOnly_ok {mk : Channel → Instr} {d : Desc} {i : Instr} :
    decodeChannelOnly mk d = .ok i ↔ ∃ c, mk c = i ∧ d.sel = encodeChannel c ∧ d.imm = 0#8 := by
  simp only [← decodeChannel_ok]
  unfold decodeChannelOnly
  cases decodeChannel d.sel <;> by_cases himm : d.imm = 0#8 <;> simp [himm]

theorem decodeMask_ok {mk : Source → Instr} {d : Desc} {i : Instr} :
    decodeMask mk d = .ok i ↔ ∃ src, mk src = i ∧ d.sel = encodeSource src ∧ d.imm = 0#8 := by
  simp only [← decodeSource_ok]
  unfold decodeMask
  cases decodeSource d.sel <;> by_cases himm : d.imm = 0#8 <;> simp [himm]

theorem decodeByteOnly_ok {mk : Byte → Instr} {d : Desc} {i : Instr} :
    decodeByteOnly mk d = .ok i ↔ mk d.imm = i ∧ d.sel = 0#4 := by
  unfold decodeByteOnly
  by_cases hsel : d.sel = 0#4 <;> simp [hsel]

theorem decodePlain_ok {j : Instr} {d : Desc} {i : Instr} :
    decodePlain j d = .ok i ↔ j = i ∧ d.sel = 0#4 ∧ d.imm = 0#8 := by
  unfold decodePlain
  by_cases hsel : d.sel = 0#4 <;> by_cases himm : d.imm = 0#8 <;> simp [hsel, himm]

/-- A descriptor decodes when its word selects an operation and its operand bytes are as many as the word tells (R84, R85). -/
theorem decode_ok {d : Desc} {i : Instr} :
    decode d = .ok i ↔ decodeWord d = .ok i ∧ d.operands.length = d.operandCount := by
  unfold decode
  cases decodeWord d <;> by_cases hlen : d.operands.length = d.operandCount <;> simp [hlen]

/-! ### The two round trips -/

/-- The word of an encoding selects its operation. -/
theorem decodeWord_encode (i : Instr) : decodeWord (encode i) = .ok i := by
  cases i with
  | push | pushBlock => simp [encode, decodeWord, decodeChannelWith]
  | pop | isEmpty | isFull | size | clear => simp [encode, decodeWord, decodeChannelOnly]
  | stwr | wrstb => simp [encode, decodeWord, decodeByteOnly]
  | irqenRd | irqenWr | irqenMp | irqdisRd | irqdisWr | irqdisMp | rdstb | mpedge => rfl

/-- An encoding has as many operand bytes as its word tells (R85). -/
theorem encode_operandCount : ∀ i : Instr, Laws.OperandBytes.Statement i
  | .push c b => Laws.OperandBytes.push c b
  | .pop c => Laws.OperandBytes.pop c
  | .pushBlock c bytes => Laws.OperandBytes.pushBlock c bytes
  | .isEmpty c => Laws.OperandBytes.isEmpty c
  | .isFull c => Laws.OperandBytes.isFull c
  | .size c => Laws.OperandBytes.size c
  | .clear c => Laws.OperandBytes.clear c
  | .stwr v => Laws.OperandBytes.stwr v
  | .irqenRd => Laws.OperandBytes.irqenRd
  | .irqenWr => Laws.OperandBytes.irqenWr
  | .irqenMp => Laws.OperandBytes.irqenMp
  | .irqdisRd => Laws.OperandBytes.irqdisRd
  | .irqdisWr => Laws.OperandBytes.irqdisWr
  | .irqdisMp => Laws.OperandBytes.irqdisMp
  | .rdstb => Laws.OperandBytes.rdstb
  | .wrstb b => Laws.OperandBytes.wrstb b
  | .mpedge => Laws.OperandBytes.mpedge

/-- Settles O1: the word of an encoding selects its operation, and the operand bytes are as many as it tells. -/
theorem decodeOfEncode : Obligations.DecodeOfEncode := fun i h =>
  decode_ok.2 ⟨decodeWord_encode i, encode_operandCount i h⟩

theorem encode_of_decodeChannelOnly {mk : Channel → Instr} {d : Desc} {i : Instr} {opc : BitVec 4}
    (hmk : ∀ c, encode (mk c) = mkDesc opc (encodeChannel c) 0#8 []) (hd : d.opc = opc ∧ d.operands = [])
    (h : decodeChannelOnly mk d = .ok i) : encode i = d := by
  obtain ⟨c, rfl, hsel, himm⟩ := decodeChannelOnly_ok.1 h
  exact (hmk c).trans (mkDesc_eq hd.1 hsel himm hd.2)

theorem encode_of_decodeMask {mk : Source → Instr} {d : Desc} {i : Instr} {opc : BitVec 4}
    (hmk : ∀ src, encode (mk src) = mkDesc opc (encodeSource src) 0#8 []) (hd : d.opc = opc ∧ d.operands = [])
    (h : decodeMask mk d = .ok i) : encode i = d := by
  obtain ⟨src, rfl, hsel, himm⟩ := decodeMask_ok.1 h
  exact (hmk src).trans (mkDesc_eq hd.1 hsel himm hd.2)

theorem encode_of_decodeByteOnly {mk : Byte → Instr} {d : Desc} {i : Instr} {opc : BitVec 4}
    (hmk : ∀ b, encode (mk b) = mkDesc opc 0#4 b []) (hd : d.opc = opc ∧ d.operands = [])
    (h : decodeByteOnly mk d = .ok i) : encode i = d := by
  obtain ⟨rfl, hsel⟩ := decodeByteOnly_ok.1 h
  exact (hmk d.imm).trans (mkDesc_eq hd.1 hsel rfl hd.2)

theorem encode_of_decodePlain {j : Instr} {d : Desc} {i : Instr} {opc : BitVec 4}
    (hj : encode j = mkDesc opc 0#4 0#8 []) (hd : d.opc = opc ∧ d.operands = [])
    (h : decodePlain j d = .ok i) : encode i = d := by
  obtain ⟨rfl, hsel, himm⟩ := decodePlain_ok.1 h
  exact hj.trans (mkDesc_eq hd.1 hsel himm hd.2)

theorem encode_irqenOf (src : Source) : encode (irqenOf src) = mkDesc 0x9#4 (encodeSource src) 0#8 [] := by cases src <;> rfl

theorem encode_irqdisOf (src : Source) : encode (irqdisOf src) = mkDesc 0xA#4 (encodeSource src) 0#8 [] := by cases src <;> rfl

/-- No operand bytes follow a word other than PUSHBLOCK's (R85). -/
theorem opc_and_no_operands {d : Desc} (opc : BitVec 4) (hlen : d.operands.length = d.operandCount)
    (hopc : d.opc.toNat = opc.toNat) (h3 : opc ≠ 3#4 := by decide) : d.opc = opc ∧ d.operands = [] := by
  obtain rfl : d.opc = opc := BitVec.eq_of_toNat_eq hopc
  rw [Desc.operandCount, if_neg h3] at hlen
  exact ⟨rfl, List.length_eq_zero_iff.1 hlen⟩

/-- A descriptor whose word selects an operation, with the operand bytes it tells, is that operation's encoding. -/
theorem encode_of_decodeWord {d : Desc} {i : Instr} (hlen : d.operands.length = d.operandCount) (h : decodeWord d = .ok i) :
    encode i = d := by
  unfold decodeWord at h
  split at h
  next hk =>
    obtain ⟨c, rfl, hsel⟩ := decodeChannelWith_ok.1 h
    obtain ⟨hopc, hops⟩ := opc_and_no_operands 1#4 hlen hk
    exact mkDesc_eq hopc hsel rfl hops
  next hk => exact encode_of_decodeChannelOnly (fun _ => rfl) (opc_and_no_operands 2#4 hlen hk) h
  next hk =>
    obtain ⟨c, rfl, hsel⟩ := decodeChannelWith_ok.1 h
    have hopc : d.opc = 3#4 := BitVec.eq_of_toNat_eq hk
    rw [Desc.operandCount, if_pos hopc] at hlen
    exact mkDesc_eq hopc hsel (by rw [hlen, BitVec.ofNat_toNat, BitVec.setWidth_eq]) rfl
  next hk => exact encode_of_decodeChannelOnly (fun _ => rfl) (opc_and_no_operands 4#4 hlen hk) h
  next hk => exact encode_of_decodeChannelOnly (fun _ => rfl) (opc_and_no_operands 5#4 hlen hk) h
  next hk => exact encode_of_decodeChannelOnly (fun _ => rfl) (opc_and_no_operands 6#4 hlen hk) h
  next hk => exact encode_of_decodeChannelOnly (fun _ => rfl) (opc_and_no_operands 7#4 hlen hk) h
  next hk => exact encode_of_decodeByteOnly (fun _ => rfl) (opc_and_no_operands 8#4 hlen hk) h
  next hk => exact encode_of_decodeMask encode_irqenOf (opc_and_no_operands 9#4 hlen hk) h
  next hk => exact encode_of_decodeMask encode_irqdisOf (opc_and_no_operands 10#4 hlen hk) h
  next hk => exact encode_of_decodePlain rfl (opc_and_no_operands 12#4 hlen hk) h
  next hk => exact encode_of_decodeByteOnly (fun _ => rfl) (opc_and_no_operands 13#4 hlen hk) h
  next hk => exact encode_of_decodePlain rfl (opc_and_no_operands 14#4 hlen hk) h
  next => cases h

/-- An operation whose encoding has no more operand bytes than a descriptor can name is well-formed. -/
theorem wellFormed_of_operands_le {i : Instr} (h : (encode i).operands.length ≤ maxBlock) : i.wellFormed := by
  cases i with
  | pushBlock c bytes => exact h
  | _ => exact trivial

/-- Settles O2: the fields of the descriptor are those of the encoding, and no operand count is above 255. -/
theorem encodeOfDecode : Obligations.EncodeOfDecode := by
  intro d i h
  obtain ⟨hw, hlen⟩ := decode_ok.1 h
  have henc : encode i = d := encode_of_decodeWord hlen hw
  exact ⟨wellFormed_of_operands_le (henc ▸ hlen ▸ d.operandCount_le), henc⟩

/-! ### The opcode table -/

/-- A row's condition field by field: the mask and the pattern of each field of the word. -/
theorem selects_iff_fields (r : TableRow) (d : Desc) : r.selects d.word ↔
    d.opc &&& r.mask.extractLsb' 12 4 = r.pattern.extractLsb' 12 4 ∧
      d.sel &&& r.mask.extractLsb' 8 4 = r.pattern.extractLsb' 8 4 ∧
        d.imm &&& r.mask.extractLsb' 0 8 = r.pattern.extractLsb' 0 8 := by
  refine word_ext_fields.trans ?_
  rw [BitVec.extractLsb'_and, BitVec.extractLsb'_and, BitVec.extractLsb'_and]
  rfl

theorem exists_encodeChannel {sel : BitVec 4} : (∃ c, sel = encodeChannel c) ↔ sel &&& 0xE#4 = 0#4 := by
  have hsel : (sel = 0#4 ∨ sel = 1#4) ↔ sel &&& 0xE#4 = 0#4 := by decide +revert
  rw [← hsel]
  constructor
  · rintro ⟨_ | _, rfl⟩
    · exact .inl rfl
    · exact .inr rfl
  · rintro (rfl | rfl)
    · exact ⟨.inbound, rfl⟩
    · exact ⟨.outbound, rfl⟩

theorem exists_encodeSource {sel : BitVec 4} : (∃ src, sel = encodeSource src) ↔ sel = 0#4 ∨ sel = 1#4 ∨ sel = 2#4 := by
  constructor
  · rintro ⟨_ | _ | _, rfl⟩ <;> decide
  · rintro (rfl | rfl | rfl)
    · exact ⟨.rd, rfl⟩
    · exact ⟨.wr, rfl⟩
    · exact ⟨.mp, rfl⟩

/-- A word selects an operation when it selects a row. The value of `opc` leaves one family of the decoder and that family's rows
of the table, and both ask the same of `sel` and `imm`. -/
theorem exists_decodeWord_iff (d : Desc) : (∃ i, decodeWord d = .ok i) ↔ ∃ r ∈ opcodeTable, r.selects d.word := by
  have hsel : d.sel &&& 15#4 = d.sel := BitVec.and_allOnes
  have himm : d.imm &&& 255#8 = d.imm := BitVec.and_allOnes
  obtain ⟨k, hopc⟩ : ∃ k : Fin 16, d.opc = BitVec.ofFin k := ⟨d.opc.toFin, rfl⟩
  simp only [selects_iff_fields]
  fin_cases k <;>
    simp [decodeWord, opcodeTable, hopc, hsel, himm, decodeChannelWith_ok, decodeChannelOnly_ok, decodeMask_ok, decodeByteOnly_ok,
      decodePlain_ok, exists_encodeChannel, exists_encodeSource, ← or_and_right]

/-- Settles O3: the word selects an operation when it selects a row, and the operand count is read off the word. -/
theorem decoderAgreesWithOpcodeTable : Obligations.DecoderAgreesWithOpcodeTable := by
  intro d
  rw [← exists_decodeWord_iff, ← d.operandCount_eq]
  simp only [decode_ok, exists_and_right]

/-- The patterns of two rows one word selects agree on the bits both rows test. -/
theorem pattern_and_mask_comm {r r' : TableRow} {w : Word} (h : r.selects w) (h' : r'.selects w) :
    r.pattern &&& r'.mask = r'.pattern &&& r.mask := by
  rw [← (h : w &&& r.mask = r.pattern), ← (h' : w &&& r'.mask = r'.pattern), BitVec.and_assoc, BitVec.and_comm r.mask,
    ← BitVec.and_assoc]

/-- The patterns of two different rows differ on a bit both rows test (R84). -/
theorem eq_of_pattern_and_mask_comm : ∀ r ∈ opcodeTable, ∀ r' ∈ opcodeTable,
    r.pattern &&& r'.mask = r'.pattern &&& r.mask → r = r' := by
  decide

/-- Settles O4: on the bits both rows test, the word has one value, and different rows want different ones. -/
theorem opcodeRowsDoNotOverlap : Obligations.OpcodeRowsDoNotOverlap := fun _ r r' hr hr' h h' =>
  eq_of_pattern_and_mask_comm r hr r' hr' (pattern_and_mask_comm h h')

/-- Settles O5: the decoder evaluated on the words. -/
theorem sampleWordsDecode : Obligations.SampleWordsDecode := by
  unfold Obligations.SampleWordsDecode
  decide

end Sys2Proof

namespace Sys2Proof.Machine

/-! ### Refusals at issue -/

/-- A descriptor that decodes to nothing is refused whoever issues it (R86). -/
theorem issueBy_of_error {a : Agent} {d : Desc} {e : DecodeError} (hd : decode d = .error e)
    (run : Instr → Host.Outcome State Fault Refusal) : issueBy a d run = .refused .illegalDescriptor := by
  simp [issueBy, hd]

/-- A descriptor of another agent's operation is refused (R87). -/
theorem issueBy_of_wrongAgent {a : Agent} {d : Desc} {i : Instr} (hd : decode d = .ok i) (ha : i.agent ≠ a)
    (run : Instr → Host.Outcome State Fault Refusal) : issueBy a d run = .refused .wrongAgent := by
  simp [issueBy, hd, ha]

/-- Either turn of an idle main loop with a descriptor to issue issues it as the main loop's (R87). -/
theorem step_mainLoop_issueBy {s : State} {d : Desc} {ps : List Desc} {ts : List Turn}
    (hturns : s.turns = .mainLoop :: ts ∨ s.turns = .micro :: ts) (hml : s.ml = .idle) (hprog : s.prog = d :: ps) :
    ∃ run, step s = issueBy .mainLoop d run := by
  rcases hturns with hturns | hturns
  · exact ⟨_, (step_of_turns hturns).trans (mainLoopTurn_issue hml hprog)⟩
  · refine ⟨fun i => issueOnly (admissionOf i { s with turns := ts }) { s with turns := ts, prog := ps }, ?_⟩
    rw [step_of_turns hturns]
    simp [takeTurn, microTurn, hml, hprog]

theorem step_host_issueBy {s : State} {d : Desc} {ts : List Turn} (hturns : s.turns = .host d :: ts) :
    ∃ run, step s = issueBy .host d run := ⟨_, step_of_turns hturns⟩

theorem step_line_issueBy {s : State} {d : Desc} {ts : List Turn} (hturns : s.turns = .line d :: ts) :
    ∃ run, step s = issueBy .line d run := ⟨_, step_of_turns hturns⟩

/-- Settles O7: every agent's turn is an issue, which refuses what does not decode. -/
theorem illegalDescriptorRefused : Obligations.IllegalDescriptorRefused := by
  intro s d e ts hd
  have refused {a : Agent} (hstep : ∃ run, step s = issueBy a d run) : step s = .refused .illegalDescriptor := by
    obtain ⟨run, hrun⟩ := hstep
    exact hrun.trans (issueBy_of_error hd run)
  refine ⟨fun ps hturns hml hprog => refused (step_mainLoop_issueBy hturns hml hprog), ?_⟩
  rintro (hturns | hturns)
  · exact refused (step_host_issueBy hturns)
  · exact refused (step_line_issueBy hturns)

/-- Settles O8: every agent's turn is an issue, which refuses another agent's operation. -/
theorem wrongAgentRefused : Obligations.WrongAgentRefused := by
  intro s d i ts hd
  have refused {a : Agent} (ha : i.agent ≠ a) (hstep : ∃ run, step s = issueBy a d run) : step s = .refused .wrongAgent := by
    obtain ⟨run, hrun⟩ := hstep
    exact hrun.trans (issueBy_of_wrongAgent hd ha run)
  exact ⟨fun ps ha hturns hml hprog => refused ha (step_mainLoop_issueBy hturns hml hprog),
    fun ha hturns => refused ha (step_host_issueBy hturns), fun ha hturns => refused ha (step_line_issueBy hturns)⟩

/-! ### CLEARSAFE -/

/-- IRQEN of an idle main loop enables its source and ends (R121). -/
theorem exec_irqenOf {s : State} (hml : s.ml = .idle) (src : Source) :
    exec (irqenOf src) s = .next (complete (.irqen1 src) .nothing (s.setIe src true)) := by
  cases src <;> exact issueAndRun_admitted hml

/-- IRQDIS of an idle main loop masks its source and ends (R122). -/
theorem exec_irqdisOf {s : State} (hml : s.ml = .idle) (src : Source) :
    exec (irqdisOf src) s = .next (complete (.irqdis1 src) .nothing (s.setIe src false)) := by
  cases src <;> exact issueAndRun_admitted hml

/-- CLEAR of an idle main loop, under mask, zeroes both indices and ends (R106). -/
theorem exec_clear_masked {s : State} {c : Channel} (hml : s.ml = .idle) (hmask : s.sourcesMasked c = true) :
    exec (.clear c) s = .next (complete (.clear2 c) .nothing ((s.setHead c 0).setTail c 0)) := by
  have hadm : admitClear c s = .admitted (.clear1 c) := if_pos hmask
  show issueAndRun (admitClear c s) s = _
  rw [hadm, issueAndRun_admitted hml]
  rfl

/-- CLEAR of an idle main loop while a source of the channel is enabled faults (R106). -/
theorem exec_clear_unmasked {s : State} {c : Channel} (hml : s.ml = .idle) (hmask : s.sourcesMasked c = false) :
    exec (.clear c) s = .fault (.clearUnmasked c) := by
  show issueAndRun (admitClear c s) s = _
  simp [admitClear, issueAndRun, hml, hmask]

/-- A sequence goes on from the state its first operation leaves. -/
theorem runOps_cons_next {i : Instr} {rest : List Instr} {s t : State} (h : exec i s = .next t) :
    runOps (i :: rest) s = runOps rest t := by
  rw [runOps, h]

theorem runOps_cons_fault {i : Instr} {rest : List Instr} {s : State} {f : Fault} (h : exec i s = .fault f) :
    runOps (i :: rest) s = .fault f := by
  rw [runOps, h]

/-- Masking a source, clearing a channel and enabling the source again, where that mask is enough for the CLEAR (R89). -/
theorem runOps_clearSafe {s : State} {src : Source} {c : Channel} (hml : s.ml = .idle)
    (hmask : (s.setIe src false).sourcesMasked c = true) :
    ∃ t, runOps [irqdisOf src, .clear c, irqenOf src] s = .next t ∧
      t = { ((s.setHead c 0).setTail c 0).setIe src true with trace := t.trace } := by
  have hdis := runOps_cons_next (rest := [.clear c, irqenOf src]) (exec_irqdisOf hml src)
  have hclear := runOps_cons_next (rest := [irqenOf src])
    (exec_clear_masked (s := complete (.irqdis1 src) .nothing (s.setIe src false)) rfl hmask)
  refine ⟨_, hdis.trans (hclear.trans (runOps_cons_next (exec_irqenOf rfl src))), ?_⟩
  rw [← State.setMl_self hml]
  cases src <;> cases c <;> rfl

/-- The same sequence where another source of the channel is still enabled. -/
theorem runOps_clearSafe_unmasked {s : State} {src : Source} {c : Channel} (hml : s.ml = .idle)
    (hmask : (s.setIe src false).sourcesMasked c = false) :
    runOps [irqdisOf src, .clear c, irqenOf src] s = .fault (.clearUnmasked c) :=
  (runOps_cons_next (exec_irqdisOf hml src)).trans
    (runOps_cons_fault (exec_clear_unmasked (s := complete (.irqdis1 src) .nothing (s.setIe src false)) rfl hmask))

/-- With WR masked, Inbound is masked when MP is (R64). -/
theorem sourcesMasked_inbound_setIe_wr (s : State) : (s.setIe .wr false).sourcesMasked .inbound = !s.ie.mp := by
  simp [State.sourcesMasked, Lines.set]

/-- Settles O57: RD alone touches Outbound, so its mask is enough; WR's is enough for Inbound when MP is masked too. -/
theorem clearSafeSequences : Obligations.ClearSafeSequences := fun s hml =>
  ⟨runOps_clearSafe (src := .rd) (c := .outbound) hml rfl,
    fun hmp => runOps_clearSafe (src := .wr) (c := .inbound) hml (by rw [sourcesMasked_inbound_setIe_wr, hmp]; rfl),
    fun hmp => runOps_clearSafe_unmasked (src := .wr) (c := .inbound) hml (by rw [sourcesMasked_inbound_setIe_wr, hmp]; rfl)⟩

end Sys2Proof.Machine

/-!
SUPPORT. The channel operations of the main loop (40_channel_ops.md R100 to R107), each as one equation or one inversion lemma of
its uninterrupted run.
-/

namespace Sys2Proof.Machine

/-! ### Uninterrupted runs, micro-step by micro-step -/

theorem runMicros_go {fuel : Nat} {m m' : Micro} {s t : State} (h : micro 0 m s = .go m' t) :
    runMicros (fuel + 1) m s = runMicros fuel m' t := by
  simp only [runMicros, h]

theorem runMicros_hold {m : Micro} {s : State} (h : micro 0 m s = .hold) (fuel : Nat) :
    runMicros fuel m s = .next (s.setMl (.inOp m)) := by
  cases fuel <;> simp only [runMicros, h, settle]

theorem runMicros_done {m : Micro} {res : Res} {s t : State} (h : micro 0 m s = .done res t) (fuel : Nat) :
    runMicros fuel m s = .next (complete m res t) := by
  cases fuel <;> simp only [runMicros, h, settle]

theorem runMicros_fault {m : Micro} {f : Fault} {s : State} (h : micro 0 m s = .fault f) (fuel : Nat) :
    runMicros fuel m s = .fault f := by
  cases fuel <;> simp only [runMicros, h, settle]

/-- Everything an uninterrupted PUSH can do when it answers a next state: hold while full, or store at `tail` and advance it
(R100). -/
theorem runFrom_push1_next {c : Channel} {b : Byte} {s t : State} :
    runFrom (.push1 c b) s = .next t ↔
      (s.full c = true ∧ t = s.setMl (.inOp (.push1 c b))) ∨
      (s.full c = false ∧ ∃ u, enqueue c b s = .ok u ∧ t = complete (.push3 c b) .nothing u) := by
  cases hf : s.full c with
  | true =>
    have htest : micro 0 (.push1 c b) s = .hold := if_pos hf
    have hrun : runFrom (.push1 c b) s = _ := runMicros_hold htest _
    simp [hrun, eq_comm]
  | false =>
    have htest : micro 0 (.push1 c b) s = .go (.push2 c b) s := if_neg (by simp [hf])
    have hrun : runFrom (.push1 c b) s = runMicros 1 (.push2 c b) s := runMicros_go htest
    cases hw : slotWrite c (s.tail c) b s with
    | ok u =>
      have hstore : micro 0 (.push2 c b) s = .go (.push3 c b) u := by simp only [micro, microPush2, hw]
      rw [hrun, runMicros_go hstore, runMicros_done rfl]
      simp [enqueue, hw, eq_comm]
    | error f =>
      have hstore : micro 0 (.push2 c b) s = .fault f := by simp only [micro, microPush2, hw]
      rw [hrun, runMicros_fault hstore]
      simp [enqueue, hw]

/-- Everything an uninterrupted POP can do when it answers a next state: hold while empty, or read at `head` and advance it
(R101). -/
theorem runFrom_pop1_next {c : Channel} {s t : State} :
    runFrom (.pop1 c) s = .next t ↔
      (s.empty c = true ∧ t = s.setMl (.inOp (.pop1 c))) ∨
      (s.empty c = false ∧ ∃ v u, dequeue c s = .ok (v, u) ∧ t = complete (.pop3 c v) (.byte v) u) := by
  cases he : s.empty c with
  | true =>
    have htest : micro 0 (.pop1 c) s = .hold := if_pos he
    have hrun : runFrom (.pop1 c) s = _ := runMicros_hold htest _
    simp [hrun, eq_comm]
  | false =>
    have htest : micro 0 (.pop1 c) s = .go (.pop2 c) s := if_neg (by simp [he])
    have hrun : runFrom (.pop1 c) s = runMicros 1 (.pop2 c) s := runMicros_go htest
    cases hr : slotRead c (s.head c) s with
    | ok v =>
      have hread : micro 0 (.pop2 c) s = .go (.pop3 c v) s := by simp only [micro, microPop2, hr]
      rw [hrun, runMicros_go hread, runMicros_done rfl]
      simp [dequeue, hr, eq_comm]
    | error f =>
      have hread : micro 0 (.pop2 c) s = .fault f := by simp only [micro, microPop2, hr]
      rw [hrun, runMicros_fault hread]
      simp [dequeue, hr]

/-! ### A block in memory -/

/-- The memory of an array of `m` slots with a block written from index `i` on, wrapping (R54, R102). -/
def Memory.writeBlock (m : Nat) : Memory → Nat → List Byte → Memory
  | mem, _, [] => mem
  | mem, i, b :: rest => Memory.writeBlock m (Memory.write mem (i % m) b) (i + 1) rest

/-- The start index counts modulo the array's length. -/
theorem Memory.writeBlock_mod (m : Nat) (mem : Memory) (i : Nat) (bytes : List Byte) :
    Memory.writeBlock m mem (i % m) bytes = Memory.writeBlock m mem i bytes := by
  induction bytes generalizing mem i with
  | nil => rfl
  | cons b rest ih =>
    simp only [Memory.writeBlock, Nat.mod_mod]
    rw [← ih _ (i % m + 1), ← ih _ (i + 1), Nat.mod_add_mod]

/-- A slot no byte of the block goes to reads as before. -/
theorem Memory.read_writeBlock_other {m : Nat} {mem : Memory} {i a : Nat} {bytes : List Byte}
    (h : ∀ k, k < bytes.length → a ≠ (i + k) % m) : Memory.read (Memory.writeBlock m mem i bytes) a = Memory.read mem a := by
  induction bytes generalizing mem i with
  | nil => rfl
  | cons b rest ih =>
    have hrest : ∀ k, k < rest.length → a ≠ (i + 1 + k) % m := fun k hk => by
      rw [Nat.add_assoc, Nat.add_comm 1 k]
      exact h (k + 1) (Nat.succ_lt_succ hk)
    calc Memory.read (Memory.writeBlock m mem i (b :: rest)) a = Memory.read (Memory.write mem (i % m) b) a := ih hrest
      _ = Memory.read mem a := Memory.read_write_other mem b (h 0 (Nat.succ_pos _))

/-- Byte `k` of a block no longer than the array is in slot `(i + k) mod m`. -/
theorem Memory.read_writeBlock {m : Nat} {mem : Memory} {i : Nat} {bytes : List Byte} (hlen : bytes.length ≤ m) {k : Nat}
    (hk : k < bytes.length) : Memory.read (Memory.writeBlock m mem i bytes) ((i + k) % m) = bytes[k]? := by
  induction bytes generalizing mem i k with
  | nil => cases hk
  | cons b rest ih =>
    have hlen' : rest.length + 1 ≤ m := hlen
    cases k with
    | zero =>
      have hother : ∀ j, j < rest.length → i % m ≠ (i + 1 + j) % m := fun j hj heq => by
        have hmod : 0 ≡ 1 + j [MOD m] := Nat.ModEq.add_left_cancel' i (by rwa [← Nat.add_assoc])
        have := hmod.eq_of_lt_of_lt (by omega) (by omega)
        omega
      exact (Memory.read_writeBlock_other hother).trans (Memory.read_write_same mem (i % m) b)
    | succ k =>
      rw [Nat.add_comm k 1, ← Nat.add_assoc, Nat.add_comm 1 k, List.getElem?_cons_succ]
      exact ih (by omega) (Nat.lt_of_succ_lt_succ hk)

/-! ### A block published -/

/-- The state with a block stored from `tail` on and published (R60, R102): what a PUSHBLOCK leaves, and as many PUSHes. -/
def State.pushAll (s : State) (c : Channel) (bytes : List Byte) : State :=
  s.withChan c
    { buf := Memory.writeBlock (s.len c) (s.chan c).buf (s.tail c) bytes
      head := s.head c
      tail := s.advIdx c (s.tail c) bytes.length }

@[simp] theorem State.pushAll_cap (s : State) (c c' : Channel) (bytes : List Byte) :
    (s.pushAll c bytes).cap c' = s.cap c' := rfl

@[simp] theorem State.pushAll_head (s : State) (c : Channel) (bytes : List Byte) : (s.pushAll c bytes).head c = s.head c := by
  cases c <;> rfl

@[simp] theorem State.pushAll_tail (s : State) (c : Channel) (bytes : List Byte) :
    (s.pushAll c bytes).tail c = s.advIdx c (s.tail c) bytes.length := by
  cases c <;> rfl

theorem State.pushAll_buf (s : State) (c : Channel) (bytes : List Byte) :
    ((s.pushAll c bytes).chan c).buf = Memory.writeBlock (s.len c) (s.chan c).buf (s.tail c) bytes := by
  cases c <;> rfl

/-- Byte `k` of a published block is `k` slots after the old `tail` (R102). -/
theorem State.slot_pushAll {s : State} {c : Channel} {bytes : List Byte} (hlen : bytes.length ≤ s.len c) {k : Nat}
    (hk : k < bytes.length) : (s.pushAll c bytes).slot c (s.advIdx c (s.tail c) k) = bytes[k]? := by
  rw [State.slot, State.pushAll_buf]
  exact Memory.read_writeBlock hlen hk

theorem State.slot_pushAll_other {s : State} {c : Channel} {bytes : List Byte} {a : Nat}
    (h : ∀ k, k < bytes.length → a ≠ s.advIdx c (s.tail c) k) : (s.pushAll c bytes).slot c a = s.slot c a := by
  rw [State.slot, State.pushAll_buf]
  exact Memory.read_writeBlock_other h

/-- The empty block changes nothing. -/
theorem State.pushAll_nil {s : State} {c : Channel} (ht : s.tail c < s.len c) : s.pushAll c [] = s := by
  rw [State.pushAll, List.length_nil, State.advIdx_zero ht]
  cases c <;> rfl

/-- A block is its first byte and then the rest. -/
theorem State.pushAll_cons (s : State) (c : Channel) (b : Byte) (rest : List Byte) :
    (s.pushAll c [b]).pushAll c rest = s.pushAll c (b :: rest) := by
  have hbuf := Memory.writeBlock_mod (s.len c) (Memory.write (s.chan c).buf (s.tail c % s.len c) b) (s.tail c + 1) rest
  have htail : s.advIdx c (s.advIdx c (s.tail c) 1) rest.length = s.advIdx c (s.tail c) (rest.length + 1) := by
    rw [State.advIdx_advIdx, Nat.add_comm]
  simp only [State.pushAll, List.length_cons, ← htail]
  rw [show Memory.writeBlock (s.len c) (s.chan c).buf (s.tail c) (b :: rest) = _ from hbuf.symm]
  cases c <;> rfl

/-- A push's two writes publish a block of one byte (R60). -/
theorem State.pushAll_singleton {s : State} {c : Channel} (ht : s.tail c < s.len c) (b : Byte) :
    s.pushAll c [b] = (s.withSlot c (s.tail c) b).setTail c (s.nextIdx c (s.tail c)) := by
  simp only [State.pushAll, Memory.writeBlock, Nat.mod_eq_of_lt ht]
  cases c <;> rfl

theorem State.indicesOk_pushAll {s : State} {c : Channel} (hi : s.indicesOk c) (bytes : List Byte) :
    (s.pushAll c bytes).indicesOk c := by
  constructor
  · rw [State.pushAll_head]
    exact hi.1
  · rw [State.pushAll_tail]
    exact s.advIdx_lt c _ _

@[simp] theorem State.queue_length (s : State) (c : Channel) : (s.queue c).length = s.size c := by
  simp [State.queue]

/-- A published block stands at the young end of the queue, in order (R53). -/
theorem State.queue_pushAll {s : State} {c : Channel} {bytes : List Byte} (hi : s.indicesOk c)
    (hroom : s.size c + bytes.length ≤ s.cap c) : (s.pushAll c bytes).queue c = s.queue c ++ bytes.map some := by
  induction bytes generalizing s with
  | nil => simp [State.pushAll_nil hi.2]
  | cons b rest ih =>
    rw [List.length_cons] at hroom
    have hf : s.full c = false := State.not_full_of_size_lt hi (by omega)
    have hone : (s.pushAll c [b]).queue c = s.queue c ++ [some b] := by
      rw [State.pushAll_singleton hi.2]
      exact State.queue_push hi hf b
    have hsize : (s.pushAll c [b]).size c = s.size c + 1 := by simpa using congrArg List.length hone
    rw [← State.pushAll_cons, ih (State.indicesOk_pushAll hi [b]) (by rw [hsize, State.pushAll_cap]; omega), hone]
    simp

theorem State.size_pushAll {s : State} {c : Channel} {bytes : List Byte} (hi : s.indicesOk c)
    (hroom : s.size c + bytes.length ≤ s.cap c) : (s.pushAll c bytes).size c = s.size c + bytes.length := by
  simpa using congrArg List.length (State.queue_pushAll hi hroom)

/-- An uninterrupted block whose first `written` bytes are in their slots stores the others and publishes the whole (R102). -/
theorem runMicros_block2 {c : Channel} {bytes : List Byte} (t : Nat) {rest : List Byte} {written : Nat} (s : State)
    (hrest : bytes.drop written = rest) :
    runMicros rest.length (.block2 c bytes t written 0) s = .next (complete (.block2 c bytes t bytes.length 0) .nothing
      (s.withChan c
        { buf := Memory.writeBlock (s.len c) (s.chan c).buf (t + written) rest
          head := s.head c
          tail := s.advIdx c t bytes.length })) := by
  induction rest generalizing s written with
  | nil =>
    have hw : ¬ written < blockLength bytes := Nat.not_lt.2 (List.drop_eq_nil_iff.1 hrest)
    rw [runMicros_done (micro_block_end not_earlyPublication_zero hw)]
    cases c <;> rfl
  | cons b rest ih =>
    have hw : written < bytes.length := by
      by_contra hge
      simp [List.drop_eq_nil_iff.2 (Nat.not_lt.1 hge)] at hrest
    rw [List.drop_eq_getElem_cons hw] at hrest
    obtain ⟨hb, hrest⟩ := List.cons.inj hrest
    have hbyte : blockByte bytes written = b := by simp [blockByte, hw, hb]
    rw [List.length_cons, runMicros_go (micro_block_store not_earlyPublication_zero hw), ih _ hrest, hbyte]
    cases c <;> rfl

/-- An uninterrupted PUSHBLOCK holds while the block does not fit (R102). -/
theorem runFrom_block1_hold {c : Channel} {bytes : List Byte} {s : State} (h : s.free c < bytes.length) :
    runFrom (.block1 c bytes) s = .next (s.setMl (.inOp (.block1 c bytes))) := by
  have htest : micro 0 (.block1 c bytes) s = .hold := if_pos h
  exact runMicros_hold htest _

/-- An uninterrupted PUSHBLOCK that fits publishes the whole block (R102). -/
theorem runFrom_block1_done {c : Channel} {bytes : List Byte} {s : State} (h : bytes.length ≤ s.free c) :
    runFrom (.block1 c bytes) s =
      .next (complete (.block2 c bytes (s.tail c) bytes.length 0) .nothing (s.pushAll c bytes)) := by
  have htest : micro 0 (.block1 c bytes) s = .go (.block2 c bytes (s.tail c) 0 0) s := if_neg (Nat.not_lt.2 h)
  exact (runMicros_go htest).trans (runMicros_block2 (s.tail c) s rfl)

end Sys2Proof.Machine

/-!
SUPPORT. The channel operations as the main loop issues them (40_channel_ops.md R100 to R107): the state each leaves, where it
holds, where it stops, and what it leaves unchanged.
-/

namespace Sys2Proof.Machine

/-! ### The issue of an operation -/

/-- An admitted operation of an idle main loop runs from its first micro-step (R88). -/
theorem exec_admitted {i : Instr} {m : Micro} {s : State} (ha : i.agent = .mainLoop) (hml : s.ml = .idle)
    (hadm : admissionOf i s = .admitted m) : exec i s = runFrom m s := by
  rw [exec_mainLoop ha, hadm, issueAndRun_admitted hml]

/-- An operation the main loop may not issue is refused (R107). -/
theorem exec_refused {i : Instr} {r : Refusal} {s : State} (ha : i.agent = .mainLoop) (hml : s.ml = .idle)
    (hadm : admissionOf i s = .refused r) : exec i s = .refused r := by
  rw [exec_mainLoop ha, hadm, issueAndRun, hml]

/-- Everything a main-loop operation can do when it answers a next state: nothing inside another operation, or its run. -/
theorem exec_mainLoop_next {i : Instr} {s t : State} (ha : i.agent = .mainLoop) (h : exec i s = .next t) :
    t = s ∨ (s.ml = .idle ∧ ∃ m, admissionOf i s = .admitted m ∧ runFrom m s = .next t) := by
  rw [exec_mainLoop ha] at h
  exact (issueAndRun_next.1 h).imp_left And.right

/-- The end of an operation shows in the trace only, where ML is idle already (R11, R33). -/
theorem complete_of_idle {s : State} (hml : s.ml = .idle) (m : Micro) (res : Res) :
    complete m res s = s.observe (.op (microOp m) res) := by
  rw [complete, State.setMl_self hml]

/-! ### PUSH -/

theorem runFrom_push1_done {s : State} {c : Channel} {b : Byte} (ht : s.tail c < s.len c) (hf : s.full c = false) :
    runFrom (.push1 c b) s = .next (complete (.push3 c b) .nothing (s.pushAll c [b])) :=
  runFrom_push1_next.2 (.inr ⟨hf, _, enqueue_ok.2 ⟨ht, State.pushAll_singleton ht b⟩, rfl⟩)

/-- PUSH OUT with room publishes its byte and ends (R100). -/
theorem exec_push_done {s : State} {b : Byte} (hml : s.ml = .idle) (ht : s.tail .outbound < s.len .outbound)
    (hf : s.full .outbound = false) :
    exec (.push .outbound b) s = .next ((s.pushAll .outbound [b]).observe (.op (.push .outbound b) .nothing)) := by
  rw [exec_admitted rfl hml rfl, runFrom_push1_done ht hf]
  exact congrArg _ (complete_of_idle (s := s.pushAll .outbound [b]) hml _ _)

/-- PUSH OUT on a full channel holds (R100). -/
theorem exec_push_hold {s : State} (hml : s.ml = .idle) (hf : s.full .outbound = true) (b : Byte) :
    exec (.push .outbound b) s = .next { s with ml := .inOp (.push1 .outbound b) } := by
  rw [exec_admitted rfl hml rfl]
  exact runFrom_push1_next.2 (.inl ⟨hf, rfl⟩)

/-- Settles O9: a published block of one byte is the statement's store and advance. -/
theorem pushCompletes : Obligations.PushCompletes := by
  intro s b hml ht hne
  have ht : s.tail .outbound < s.len .outbound := ht
  have hf : s.full .outbound = false := beq_eq_false_iff_ne.2 hne
  rw [exec_push_done hml ht hf, State.pushAll_singleton ht]
  rfl

/-- Settles O10: the full test holds, and ML is all that shows it. -/
theorem pushHoldsWhileFull : Obligations.PushHoldsWhileFull := by
  intro s b hml hfull
  have hf : s.full .outbound = true := beq_iff_eq.2 hfull
  exact exec_push_hold hml hf b

/-- Settles O11: the admission of each operation refuses, whatever its operand. -/
theorem wrongRoleRefused : Obligations.WrongRoleRefused := by
  intro s b bytes hml
  refine ⟨exec_refused rfl hml rfl, exec_refused rfl hml rfl, fun hrd => exec_refused rfl hml ?_⟩
  simp [admissionOf, admitPop, State.popAdmitted, hrd]

/-! ### POP -/

/-- A channel is the main loop's to pop: Inbound always, Outbound while RD is masked (R107). -/
theorem State.popAdmitted_iff {s : State} {c : Channel} : s.popAdmitted c = true ↔ (c = .outbound → s.ie.rd = false) := by
  cases c <;> simp [State.popAdmitted]

theorem admissionOf_pop {s : State} {c : Channel} (hadm : s.popAdmitted c = true) :
    admissionOf (.pop c) s = .admitted (.pop1 c) := if_pos hadm

theorem runFrom_pop1_done {s : State} {c : Channel} {v : Byte} (he : s.empty c = false) (hh : s.head c < s.len c)
    (hv : s.slot c (s.head c) = some v) :
    runFrom (.pop1 c) s = .next (complete (.pop3 c v) (.byte v) (s.setHead c (s.nextIdx c (s.head c)))) :=
  runFrom_pop1_next.2 (.inr ⟨he, v, _, dequeue_ok.2 ⟨hh, hv, rfl⟩, rfl⟩)

/-- POP of a channel with data drops the oldest byte and ends with it (R101). -/
theorem exec_pop_done {s : State} {c : Channel} {v : Byte} (hml : s.ml = .idle) (hadm : s.popAdmitted c = true)
    (he : s.empty c = false) (hh : s.head c < s.len c) (hv : s.slot c (s.head c) = some v) :
    exec (.pop c) s = .next ((s.setHead c (s.nextIdx c (s.head c))).observe (.op (.pop c) (.byte v))) := by
  rw [exec_admitted rfl hml (admissionOf_pop hadm), runFrom_pop1_done he hh hv]
  exact congrArg _ (complete_of_idle (s := s.setHead c _) hml _ _)

/-- POP of an empty channel holds (R101). -/
theorem exec_pop_hold {s : State} {c : Channel} (hml : s.ml = .idle) (hadm : s.popAdmitted c = true) (he : s.empty c = true) :
    exec (.pop c) s = .next { s with ml := .inOp (.pop1 c) } := by
  rw [exec_admitted rfl hml (admissionOf_pop hadm)]
  exact runFrom_pop1_next.2 (.inl ⟨he, rfl⟩)

/-- Settles O12: the statement's conditions are POP's admission, its test and its read. -/
theorem popCompletes : Obligations.PopCompletes := by
  intro s c v hml hrd hne hh hv
  have he : s.empty c = false := beq_eq_false_iff_ne.2 hne
  exact exec_pop_done hml (State.popAdmitted_iff.2 hrd) he hh hv

/-- Settles O13: the empty test holds, and ML is all that shows it. -/
theorem popHoldsWhileEmpty : Obligations.PopHoldsWhileEmpty := by
  intro s c hml hrd heq
  have he : s.empty c = true := beq_iff_eq.2 heq
  exact exec_pop_hold hml (State.popAdmitted_iff.2 hrd) he

/-! ### PUSHBLOCK -/

/-- PUSHBLOCK OUT that fits publishes its block and ends (R102). -/
theorem exec_pushBlock_done {s : State} {bytes : List Byte} (hml : s.ml = .idle) (hfree : bytes.length ≤ s.free .outbound) :
    exec (.pushBlock .outbound bytes) s =
      .next ((s.pushAll .outbound bytes).observe (.op (.pushBlock .outbound bytes) .nothing)) := by
  rw [exec_admitted rfl hml rfl, runFrom_block1_done hfree]
  exact congrArg _ (complete_of_idle (s := s.pushAll .outbound bytes) hml _ _)

/-- A block that fits is shorter than the array. -/
theorem State.length_le_len_of_free {s : State} {c : Channel} {n : Nat} (h : n ≤ s.free c) : n ≤ s.len c :=
  h.trans ((Nat.sub_le _ _).trans (Nat.le_succ _))

/-- Settles O14: the reads of the memory a block is written into. -/
theorem pushBlockCompletes : Obligations.PushBlockCompletes := by
  intro s bytes hml _ hfree
  refine ⟨_, exec_pushBlock_done hml hfree, fun k hk => ?_, fun a ha => ?_⟩
  · exact Memory.read_writeBlock (State.length_le_len_of_free hfree) hk
  · exact Memory.read_writeBlock_other ha

/-- Settles O15: the test is for the whole block. -/
theorem pushBlockHoldsWhileShort : Obligations.PushBlockHoldsWhileShort := by
  intro s bytes hml hfree
  rw [exec_admitted rfl hml rfl]
  exact runFrom_block1_hold hfree

/-! ### The queries -/

/-- A query answers from the two index cells and changes nothing (R103 to R105). -/
theorem exec_query {s : State} (hml : s.ml = .idle) (q : Query) (c : Channel) :
    exec (queryOp q c) s = .next (s.observe (.op (queryOp q c) (queryAnswer q c (s.head c) (s.tail c) s))) := by
  have hread : micro 0 (.query1 q c) s = .go (.queryTail q c (s.head c)) s := rfl
  have hrun : runFrom (.query1 q c) s = .next (complete (.queryTail q c (s.head c)) _ s) :=
    (runMicros_go hread).trans (runMicros_done rfl _)
  rw [complete_of_idle hml] at hrun
  cases q <;> exact (exec_admitted rfl hml rfl).trans hrun

/-- Settles O16: the three answers, SIZE's being the occupancy law (R52). -/
theorem queriesComplete : Obligations.QueriesComplete := fun s c hml =>
  ⟨exec_query hml .isEmpty c, exec_query hml .isFull c, s.size c, exec_query hml .size c, s.size_le_cap c, s.size_eq_emod c⟩

theorem exec_query_next {s t : State} {q : Query} {c : Channel} (h : exec (queryOp q c) s = .next t) :
    t = { s with trace := t.trace } := by
  obtain rfl | ⟨hml, -⟩ := exec_mainLoop_next (by cases q <;> rfl) h
  · rfl
  · cases (exec_query hml q c).symm.trans h
    rfl

/-- Settles O29: each of the three is a query. -/
theorem queryFrame : Obligations.QueryFrame := by
  rintro s t c i (rfl | rfl | rfl) h
  · exact exec_query_next (q := .isEmpty) h
  · exact exec_query_next (q := .isFull) h
  · exact exec_query_next (q := .size) h

/-! ### CLEAR -/

/-- CLEAR under mask of an idle main loop shows in the two index cells and the trace (R106). -/
theorem exec_clear_done {s : State} {c : Channel} (hml : s.ml = .idle) (hmask : s.sourcesMasked c = true) :
    exec (.clear c) s = .next (((s.setHead c 0).setTail c 0).observe (.op (.clear c) .nothing)) := by
  rw [exec_clear_masked hml hmask]
  exact congrArg _ (complete_of_idle (s := (s.setHead c 0).setTail c 0) hml _ _)

theorem State.sourcesMasked_outbound {s : State} : s.sourcesMasked .outbound = true ↔ s.ie.rd = false := by
  simp [State.sourcesMasked]

theorem State.sourcesMasked_inbound {s : State} : s.sourcesMasked .inbound = true ↔ s.ie.wr = false ∧ s.ie.mp = false := by
  simp [State.sourcesMasked]

/-- Settles O17: each channel's own mask is the admission of its CLEAR. -/
theorem clearCompletes : Obligations.ClearCompletes := fun _ hml =>
  ⟨fun hrd => exec_clear_done hml (State.sourcesMasked_outbound.2 hrd),
    fun hwr hmp => exec_clear_done hml (State.sourcesMasked_inbound.2 ⟨hwr, hmp⟩)⟩

/-- Settles O18: one enabled source of the channel is enough to stop its CLEAR. -/
theorem clearUnmaskedFaults : Obligations.ClearUnmaskedFaults := by
  intro s hml
  refine ⟨fun hrd => exec_clear_unmasked hml ?_, fun h => exec_clear_unmasked hml ?_⟩
  · simp [State.sourcesMasked, hrd]
  · rcases h with h | h <;> simp [State.sourcesMasked, h]

/-! ### What an operation leaves unchanged -/

theorem admissionOf_push_admitted {c : Channel} {b : Byte} {s : State} {m : Micro}
    (h : admissionOf (.push c b) s = .admitted m) : c = .outbound ∧ m = .push1 c b := by
  cases c <;> cases h
  exact ⟨rfl, rfl⟩

theorem admissionOf_pushBlock_admitted {c : Channel} {bytes : List Byte} {s : State} {m : Micro}
    (h : admissionOf (.pushBlock c bytes) s = .admitted m) : c = .outbound ∧ m = .block1 c bytes := by
  cases c <;> cases h
  exact ⟨rfl, rfl⟩

/-- Everything PUSH can do when it answers a next state: nothing, its hold, or its publication on Outbound. -/
theorem exec_push_next {s t : State} {c : Channel} {b : Byte} (h : exec (.push c b) s = .next t) :
    t = s ∨ t = s.setMl (.inOp (.push1 c b)) ∨
      (s.tail .outbound < s.len .outbound ∧ t = complete (.push3 c b) .nothing (s.pushAll .outbound [b])) := by
  obtain rfl | ⟨-, m, hadm, hrun⟩ := exec_mainLoop_next rfl h
  · exact .inl rfl
  · obtain ⟨rfl, rfl⟩ := admissionOf_push_admitted hadm
    obtain ⟨-, rfl⟩ | ⟨-, u, hu, rfl⟩ := runFrom_push1_next.1 hrun
    · exact .inr (.inl rfl)
    · obtain ⟨ht, rfl⟩ := enqueue_ok.1 hu
      exact .inr (.inr ⟨ht, by rw [State.pushAll_singleton ht]⟩)

/-- Everything PUSHBLOCK can do when it answers a next state: nothing, its hold, or its publication on Outbound. -/
theorem exec_pushBlock_next {s t : State} {c : Channel} {bytes : List Byte} (h : exec (.pushBlock c bytes) s = .next t) :
    t = s ∨ t = s.setMl (.inOp (.block1 c bytes)) ∨ ∃ m, t = complete m .nothing (s.pushAll .outbound bytes) := by
  obtain rfl | ⟨-, m, hadm, hrun⟩ := exec_mainLoop_next rfl h
  · exact .inl rfl
  · obtain ⟨rfl, rfl⟩ := admissionOf_pushBlock_admitted hadm
    rcases Nat.lt_or_ge (s.free .outbound) bytes.length with hfree | hfree
    · cases (runFrom_block1_hold hfree).symm.trans hrun
      exact .inr (.inl rfl)
    · cases (runFrom_block1_done hfree).symm.trans hrun
      exact .inr (.inr ⟨_, rfl⟩)

/-- Settles O30: a published block reads as before in every slot its bytes do not go to; a hold writes none. -/
theorem storingOperationFrame : Obligations.StoringOperationFrame := by
  refine fun s t c b bytes => ⟨fun h => ?_, fun h => ?_⟩
  · obtain rfl | rfl | ⟨ht, rfl⟩ := exec_push_next h
    · exact ⟨rfl, fun _ _ => rfl⟩
    · exact ⟨rfl, fun _ _ => rfl⟩
    · refine ⟨rfl, fun a ha => ?_⟩
      have hother : ∀ k, k < [b].length → a ≠ s.advIdx .outbound (s.tail .outbound) k := fun k hk => by
        rwa [Nat.lt_one_iff.1 hk, State.advIdx_zero ht]
      exact State.slot_pushAll_other hother
  · obtain rfl | rfl | ⟨m, rfl⟩ := exec_pushBlock_next h
    · exact ⟨rfl, fun _ _ => rfl⟩
    · exact ⟨rfl, fun _ _ => rfl⟩
    · exact ⟨rfl, fun a ha => State.slot_pushAll_other ha⟩

theorem admissionOf_pop_admitted {c : Channel} {s : State} {m : Micro} (h : admissionOf (.pop c) s = .admitted m) :
    m = .pop1 c := by
  simp only [admissionOf, admitPop] at h
  split at h <;> cases h
  rfl

theorem State.setHead_self (s : State) (c : Channel) : s.setHead c (s.head c) = s := by cases c <;> rfl

/-- Everything POP can do when it answers a next state: nothing, its hold, or a move of `head`. -/
theorem exec_pop_next {s t : State} {c : Channel} (h : exec (.pop c) s = .next t) :
    t = s ∨ t = s.setMl (.inOp (.pop1 c)) ∨ ∃ m res i, t = complete m res (s.setHead c i) := by
  obtain rfl | ⟨-, m, hadm, hrun⟩ := exec_mainLoop_next rfl h
  · exact .inl rfl
  · cases admissionOf_pop_admitted hadm
    obtain ⟨-, rfl⟩ | ⟨-, v, u, hu, rfl⟩ := runFrom_pop1_next.1 hrun
    · exact .inr (.inl rfl)
    · obtain ⟨-, -, rfl⟩ := dequeue_ok.1 hu
      exact .inr (.inr ⟨_, _, _, rfl⟩)

/-- Everything CLEAR can do when it answers a next state: nothing, or its two index writes. -/
theorem exec_clear_next {s t : State} {c : Channel} (h : exec (.clear c) s = .next t) :
    t = s ∨ t = ((s.setHead c 0).setTail c 0).observe (.op (.clear c) .nothing) := by
  obtain rfl | ⟨hml, -⟩ := exec_mainLoop_next rfl h
  · exact .inl rfl
  · cases hmask : s.sourcesMasked c with
    | true => cases (exec_clear_done hml hmask).symm.trans h; exact .inr rfl
    | false => cases (exec_clear_unmasked hml hmask).symm.trans h

/-- Settles O31: POP writes `head` at most, CLEAR both indices. -/
theorem popAndClearFrame : Obligations.PopAndClearFrame := by
  refine fun s t c => ⟨fun h => ?_, fun h => ?_⟩
  · obtain rfl | rfl | ⟨m, res, i, rfl⟩ := exec_pop_next h
    · rw [State.setHead_self]
    · rw [State.setMl_head, State.setHead_self]
      rfl
    · cases c <;> rfl
  · obtain rfl | rfl := exec_clear_next h
    · rw [State.setHead_self, State.setTail_self]
    · cases c <;> rfl

end Sys2Proof.Machine

/-!
SUPPORT. Sequences of channel operations: every admitted operation that need not wait completes (40_channel_ops.md R100 to R107),
a block push and as many pushes agree (R108), a channel takes and gives exactly `N_c` bytes in order (R109), and a host access
lifts a hold (R100, R101).
-/

namespace Sys2Proof.Machine

/-! ### Admitted operations complete -/

/-- An operation runs to its end: ML is idle and the trace shows the operation with its result. -/
def CompletesFrom (i : Instr) (s : State) : Prop :=
  ∃ t res, exec i s = .next t ∧ t.ml = .idle ∧ t.trace = .op i res :: s.trace

/-- An operation that ends in a state where ML is idle and the trace is the old one but for its own entry. -/
theorem CompletesFrom.of_observe {i : Instr} {s u : State} {res : Res} (hml : u.ml = .idle) (htrace : u.trace = s.trace)
    (h : exec i s = .next (u.observe (.op i res))) : CompletesFrom i s :=
  ⟨_, res, h, hml, congrArg _ htrace⟩

theorem completesFrom_push {s : State} {b : Byte} (hs : s.Inv) (hml : s.ml = .idle) (hf : s.full .outbound = false) :
    CompletesFrom (.push .outbound b) s :=
  .of_observe (u := s.pushAll .outbound [b]) hml rfl (exec_push_done hml (hs.indicesOk .outbound).2 hf)

theorem completesFrom_pop {s : State} {c : Channel} (hs : s.Inv) (hml : s.ml = .idle) (hadm : s.popAdmitted c = true)
    (he : s.empty c = false) : CompletesFrom (.pop c) s := by
  have hi := hs.indicesOk c
  obtain ⟨v, hv⟩ := State.slot_head_isSome hi (hs.liveWritten (by simp [hml])) he
  exact .of_observe (u := s.setHead c _) hml rfl (exec_pop_done hml hadm he hi.1 hv)

theorem completesFrom_query {s : State} (hml : s.ml = .idle) (q : Query) (c : Channel) : CompletesFrom (queryOp q c) s :=
  .of_observe hml rfl (exec_query hml q c)

theorem completesFrom_irqenOf {s : State} (hml : s.ml = .idle) (src : Source) : CompletesFrom (irqenOf src) s :=
  ⟨_, .nothing, exec_irqenOf hml src, rfl, by cases src <;> rfl⟩

theorem completesFrom_irqdisOf {s : State} (hml : s.ml = .idle) (src : Source) : CompletesFrom (irqdisOf src) s :=
  ⟨_, .nothing, exec_irqdisOf hml src, rfl, by cases src <;> rfl⟩

/-- Settles O39: operation by operation, the rules of use give its admission and the blocking condition its completion. -/
theorem admittedOperationCompletes : Obligations.AdmittedOperationCompletes := by
  intro s i hs hml hrules hnow
  change CompletesFrom i s
  cases i with
  | push c b =>
    obtain rfl := outbound_of_pushAdmitted hrules
    exact completesFrom_push hs hml (by simpa [completesNow] using hnow)
  | pop c => exact completesFrom_pop hs hml hrules (by simpa [completesNow] using hnow)
  | pushBlock c bytes =>
    obtain rfl := outbound_of_pushAdmitted hrules
    have hfree : bytes.length ≤ s.free .outbound := of_decide_eq_true hnow
    exact .of_observe (u := s.pushAll .outbound bytes) hml rfl (exec_pushBlock_done hml hfree)
  | isEmpty c => exact completesFrom_query hml .isEmpty c
  | isFull c => exact completesFrom_query hml .isFull c
  | size c => exact completesFrom_query hml .size c
  | clear c => exact .of_observe (u := (s.setHead c 0).setTail c 0) hml rfl (exec_clear_done hml hrules)
  | stwr v => exact ⟨_, .nothing, (exec_admitted rfl hml rfl).trans (runMicros_done rfl _), rfl, rfl⟩
  | irqenRd => exact completesFrom_irqenOf hml .rd
  | irqenWr => exact completesFrom_irqenOf hml .wr
  | irqenMp => exact completesFrom_irqenOf hml .mp
  | irqdisRd => exact completesFrom_irqdisOf hml .rd
  | irqdisWr => exact completesFrom_irqdisOf hml .wr
  | irqdisMp => exact completesFrom_irqdisOf hml .mp
  | rdstb | wrstb _ | mpedge => cases hrules

/-! ### Pushes of a list of bytes -/

/-- What the trace shows of completed pushes, the newest first (R11). -/
def pushTrace (bytes : List Byte) : List Obs := bytes.reverse.map fun b => .op (.push .outbound b) .nothing

theorem pushTrace_cons (b : Byte) (rest : List Byte) (tr : List Obs) :
    pushTrace (b :: rest) ++ tr = pushTrace rest ++ .op (.push .outbound b) .nothing :: tr := by
  simp [pushTrace]

/-- As many pushes as there is room for leave what one block of their bytes does, but for the trace (R108). -/
theorem runOps_pushes {s : State} {bytes : List Byte} (hml : s.ml = .idle) (hi : s.indicesOk .outbound)
    (hroom : s.size .outbound + bytes.length ≤ s.cap .outbound) :
    runOps (bytes.map (.push .outbound)) s =
      .next { s.pushAll .outbound bytes with trace := pushTrace bytes ++ s.trace } := by
  induction bytes generalizing s with
  | nil =>
    rw [State.pushAll_nil hi.2]
    rfl
  | cons b rest ih =>
    rw [List.length_cons] at hroom
    have hf : s.full .outbound = false := State.not_full_of_size_lt hi (by omega)
    have hsize : (s.pushAll .outbound [b]).size .outbound = s.size .outbound + 1 :=
      State.size_pushAll hi (by rw [List.length_singleton]; omega)
    have hrest := ih (s := (s.pushAll .outbound [b]).observe (.op (.push .outbound b) .nothing)) hml
      (State.indicesOk_pushAll hi [b]) (by rw [State.observe_size, hsize, State.observe_cap, State.pushAll_cap]; omega)
    rw [List.map_cons, runOps_cons_next (exec_push_done hml hi.2 hf), hrest, ← State.pushAll_cons s .outbound b rest,
      pushTrace_cons]
    rfl

/-- Settles O50: both runs publish the same block. -/
theorem blockPushEqualsPushes : Obligations.BlockPushEqualsPushes := by
  intro s bytes hs hml hfree
  have hsum := s.size_add_free .outbound
  refine ⟨_, _, exec_pushBlock_done hml hfree, runOps_pushes hml (hs.indicesOk _) (by omega), rfl, ?_, fun k hk => ?_⟩
  · exact s.pushAll_tail .outbound bytes
  · exact State.slot_pushAll (State.length_le_len_of_free hfree) hk

/-! ### Filling and draining a channel -/

theorem State.queue_eq_nil_of_empty {s : State} {c : Channel} (hi : s.indicesOk c) (he : s.empty c = true) : s.queue c = [] :=
  List.eq_nil_of_length_eq_zero ((s.queue_length c).trans ((State.empty_iff_size hi).1 he))

theorem State.empty_of_queue_eq_nil {s : State} {c : Channel} (hi : s.indicesOk c) (hq : s.queue c = []) : s.empty c = true :=
  (State.empty_iff_size hi).2 ((s.queue_length c).symm.trans (congrArg List.length hq))

/-- What the head of a queue says: there is data, `head` is at that byte, and dropping it leaves the rest (R24). -/
theorem State.head_of_queue_eq_cons {s : State} {c : Channel} {v : Byte} {q : List (Option Byte)} (hi : s.indicesOk c)
    (hq : s.queue c = some v :: q) :
    s.empty c = false ∧ s.slot c (s.head c) = some v ∧ (s.setHead c (s.nextIdx c (s.head c))).queue c = q := by
  have he : s.empty c = false := State.not_empty_of_size_pos hi (by rw [← s.queue_length c, hq]; exact Nat.succ_pos _)
  have hdrop := State.queue_setHead hi he
  rw [hq] at hdrop
  obtain ⟨hv, hrest⟩ := List.cons.inj hdrop
  exact ⟨he, hv.symm, hrest.symm⟩

/-- Where every live slot is written the queue is a list of bytes (R38). -/
theorem State.exists_queue_eq_map_some {s : State} {c : Channel} (hw : s.liveWritten c) :
    ∃ vs : List Byte, vs.map some = s.queue c := by
  have hq : s.queue c ∈ Set.range (List.map some) := by
    rw [Set.range_list_map]
    intro x hx
    obtain ⟨v, hv⟩ := Option.isSome_iff_exists.1 (State.liveWritten_iff_queue.1 hw x hx)
    exact ⟨v, hv.symm⟩
  exact hq

/-- What the trace shows of completed pops, the newest first (R11). -/
def popTrace (c : Channel) (vs : List Byte) : List Obs := vs.reverse.map fun v => .op (.pop c) (.byte v)

theorem popTrace_cons (c : Channel) (v : Byte) (rest : List Byte) (tr : List Obs) :
    popTrace c (v :: rest) ++ tr = popTrace c rest ++ .op (.pop c) (.byte v) :: tr := by
  simp [popTrace]

/-- As many pops as a channel has bytes return them oldest first and leave it empty (R109). -/
theorem runOps_pops {s : State} {c : Channel} {vs : List Byte} (hml : s.ml = .idle) (hi : s.indicesOk c)
    (hadm : s.popAdmitted c = true) (hq : s.queue c = vs.map some) :
    ∃ t, runOps (List.replicate vs.length (.pop c)) s = .next t ∧ t.ml = .idle ∧ t.popAdmitted c = true ∧
      t.empty c = true ∧ t.trace = popTrace c vs ++ s.trace := by
  induction vs generalizing s with
  | nil => exact ⟨s, rfl, hml, hadm, State.empty_of_queue_eq_nil hi hq, rfl⟩
  | cons v rest ih =>
    obtain ⟨he, hv, hrest⟩ := State.head_of_queue_eq_cons hi hq
    obtain ⟨t, hrun, hml', hadm', he', htrace⟩ := ih
      (s := (s.setHead c (s.nextIdx c (s.head c))).observe (.op (.pop c) (.byte v))) hml
      (State.indicesOk_setHead hi (s.nextIdx_lt c _)) (by cases c <;> exact hadm) hrest
    refine ⟨t, (runOps_cons_next (exec_pop_done hml hadm he hi.1 hv)).trans hrun, hml', hadm', he', ?_⟩
    rw [popTrace_cons]
    exact htrace

/-- Exactly `N_OUT` pushes fill an empty Outbound, and the next holds (R109). -/
theorem pushes_fill {s : State} {bytes : List Byte} (hs : s.Inv) (hml : s.ml = .idle) (he : s.empty .outbound = true)
    (hlen : bytes.length = s.cap .outbound) (b : Byte) :
    ∃ t, runOps (bytes.map (.push .outbound)) s = .next t ∧ t.ml = .idle ∧ t.full .outbound = true ∧
      t.queue .outbound = bytes.map some ∧ t.trace = pushTrace bytes ++ s.trace ∧
      exec (.push .outbound b) t = .next { t with ml := .inOp (.push1 .outbound b) } := by
  have hi := hs.indicesOk .outbound
  have hroom : s.size .outbound + bytes.length ≤ s.cap .outbound := by
    rw [(State.empty_iff_size hi).1 he, hlen, Nat.zero_add]
  have hq : (s.pushAll .outbound bytes).queue .outbound = bytes.map some := by
    rw [State.queue_pushAll hi hroom, State.queue_eq_nil_of_empty hi he, List.nil_append]
  have hfull : (s.pushAll .outbound bytes).full .outbound = true := by
    rw [State.full_iff_size (State.indicesOk_pushAll hi bytes), ← State.queue_length, hq, List.length_map, hlen,
      State.pushAll_cap]
  exact ⟨_, runOps_pushes hml hi hroom, hml, hfull, hq, rfl,
    exec_push_hold (s := { s.pushAll .outbound bytes with trace := pushTrace bytes ++ s.trace }) hml hfull b⟩

/-- Exactly `N_c` pops empty a full channel, in order, and the next holds (R109). -/
theorem pops_drain {s : State} {c : Channel} (hs : s.Inv) (hml : s.ml = .idle) (hadm : s.popAdmitted c = true)
    (hf : s.full c = true) :
    ∃ (t : State) (vs : List Byte), runOps (List.replicate (s.cap c) (.pop c)) s = .next t ∧ t.ml = .idle ∧
      t.empty c = true ∧ vs.map some = s.queue c ∧ t.trace = popTrace c vs ++ s.trace ∧
      exec (.pop c) t = .next { t with ml := .inOp (.pop1 c) } := by
  have hi := hs.indicesOk c
  obtain ⟨vs, hvs⟩ := State.exists_queue_eq_map_some (hs.liveWritten (c := c) (by simp [hml]))
  have hlen : vs.length = s.cap c := by
    rw [← (State.full_iff_size hi).1 hf, ← State.queue_length, ← hvs, List.length_map]
  obtain ⟨t, hrun, hml', hadm', he, htrace⟩ := runOps_pops hml hi hadm hvs.symm
  exact ⟨t, vs, hlen ▸ hrun, hml', he, hvs, htrace, exec_pop_hold hml' hadm' he⟩

/-- Settles O51: the two halves. -/
theorem capacityLaw : Obligations.CapacityLaw :=
  ⟨fun _ _ b hs hml he hlen => pushes_fill hs hml he hlen b, fun _ _ hs hml hadm hf => pops_drain hs hml hadm hf⟩

/-! ### A host access lifts a hold -/

/-- The main loop's turn inside an operation runs the rest of it (R88). -/
theorem step_mainLoop_inOp {s : State} {m : Micro} {ts : List Turn} (hturns : s.turns = .mainLoop :: ts)
    (hml : s.ml = .inOp m) : step s = runFrom m { s with turns := ts } := by
  rw [step_of_turns hturns]
  simp only [takeTurn, mainLoopTurn, hml]

theorem State.Inv.cap_pos {s : State} (hs : s.Inv) (c : Channel) : 0 < s.cap c := by
  obtain ⟨⟨hin, hout, -⟩, -⟩ := hs
  cases c with
  | inbound => exact hin
  | outbound => exact hout

/-- A host access that runs, and then the main loop's turn inside its operation. -/
theorem run_host_mainLoop {s u t : State} {i : Instr} {m : Micro} {ts : List Turn}
    (hturns : s.turns = .host (encode i) :: .mainLoop :: ts) (hd : decode (encode i) = .ok i) (ha : i.agent = .host)
    (hexec : exec i { s with turns := .mainLoop :: ts } = .next u) (hu : u.turns = .mainLoop :: ts) (hml : u.ml = .inOp m)
    (hrun : runFrom m { u with turns := ts } = .next t) : Host.Core.run Sys2Proof.core 2 s = .next t :=
  (run_succ ((step_host hturns hd ha).trans hexec)).trans (run_succ (n := 0) ((step_mainLoop_inOp hu hml).trans hrun))

/-- A host read under a terminal SR drops Outbound's oldest byte and samples it (R130). -/
theorem exec_rdstb_pop {s : State} {v : Byte} (hrd : s.ie.rd = true) (hsr : statusBypass s.sr = false)
    (he : s.empty .outbound = false) (hh : s.head .outbound < s.len .outbound)
    (hv : s.slot .outbound (s.head .outbound) = some v) :
    exec .rdstb s = .next ((s.setHead .outbound (s.nextIdx .outbound (s.head .outbound))).observe (.read v)) := by
  show execRdstb s = _
  have hread := readHandler_ok.2 (.inr (.inr ⟨hsr, he, dequeue_ok.2 ⟨hh, hv, rfl⟩⟩))
  exact edge_next.2 (.inl ⟨hrd, _, _, answerRead_ok.2 ⟨_, rfl, hread⟩, rfl⟩)

/-- A host write on an Inbound that is not full publishes its byte (R131). -/
theorem exec_wrstb_push {s : State} {b : Byte} (hwr : s.ie.wr = true) (hf : s.full .inbound = false)
    (ht : s.tail .inbound < s.len .inbound) :
    exec (.wrstb b) s = .next ((s.pushAll .inbound [b]).observe (.write b)) := by
  show execWrstb b s = _
  have hwrite : writeHandler b s = .ok (s.pushAll .inbound [b]) :=
    writeHandler_ok.2 (.inr ⟨hf, enqueue_ok.2 ⟨ht, State.pushAll_singleton ht b⟩⟩)
  exact edge_next.2 (.inl ⟨hwr, _, _, answerWrite_ok.2 ⟨rfl, hwrite⟩, rfl⟩)

/-- A held PUSH that finds one free slot fills the channel (R100). -/
theorem runFrom_push1_fills {s : State} {c : Channel} (hi : s.indicesOk c) (hsize : s.size c + 1 = s.cap c) (b : Byte) :
    ∃ t, runFrom (.push1 c b) s = .next t ∧ t.ml = .idle ∧ t.full c = true ∧
      t.trace = .op (.push c b) .nothing :: s.trace := by
  have hf : s.full c = false := State.not_full_of_size_lt hi (by omega)
  have hsize' : (s.pushAll c [b]).size c = s.cap c := (State.size_pushAll (bytes := [b]) hi hsize.le).trans hsize
  exact ⟨_, runFrom_push1_done hi.2 hf, rfl, (State.full_iff_size (State.indicesOk_pushAll hi [b])).2 hsize', rfl⟩

/-- A held POP that finds one byte returns it and leaves the channel empty (R101). -/
theorem runFrom_pop1_empties {s : State} {c : Channel} {v : Byte} (hi : s.indicesOk c) (hq : s.queue c = [some v]) :
    ∃ t, runFrom (.pop1 c) s = .next t ∧ t.ml = .idle ∧ t.empty c = true ∧
      t.trace = .op (.pop c) (.byte v) :: s.trace := by
  obtain ⟨he, hv, hrest⟩ := State.head_of_queue_eq_cons hi hq
  have hempty := State.empty_of_queue_eq_nil (State.indicesOk_setHead hi (s.nextIdx_lt c _)) hrest
  exact ⟨_, runFrom_pop1_done he hi.1 hv, rfl, hempty, rfl⟩

/-- A held PUSH completes after one read that pops, and the channel is full again (R100, V4). -/
theorem run_read_lifts_push {s : State} {b v : Byte} {ts : List Turn} (hs : s.Inv) (hml : s.ml = .inOp (.push1 .outbound b))
    (hf : s.full .outbound = true) (hrd : s.ie.rd = true) (hsr : statusBypass s.sr = false)
    (hv : s.slot .outbound (s.head .outbound) = some v) (hturns : s.turns = .host (encode .rdstb) :: .mainLoop :: ts) :
    ∃ t, Host.Core.run Sys2Proof.core 2 s = .next t ∧ t.ml = .idle ∧ t.full .outbound = true ∧
      t.trace = .op (.push .outbound b) .nothing :: .read v :: s.trace := by
  have hi := hs.indicesOk .outbound
  have hsize := (State.full_iff_size hi).1 hf
  have he : s.empty .outbound = false := State.not_empty_of_size_pos hi (hsize ▸ hs.cap_pos .outbound)
  have hread := exec_rdstb_pop (s := { s with turns := .mainLoop :: ts }) hrd hsr he hi.1 hv
  obtain ⟨t, hrun, ht⟩ := runFrom_push1_fills (c := .outbound)
    (s := (({ s with turns := ts } : State).setHead .outbound (s.nextIdx .outbound (s.head .outbound))).observe (.read v))
    (State.indicesOk_setHead hi (s.nextIdx_lt _ _)) ((State.size_setHead_nextIdx hi he).trans hsize) b
  exact ⟨t, run_host_mainLoop hturns decode_encode_rdstb rfl hread rfl hml hrun, ht⟩

/-- A held POP completes with the byte of one write, and the channel is empty again (R101, V10). -/
theorem run_write_lifts_pop {s : State} {b : Byte} {ts : List Turn} (hs : s.Inv) (hml : s.ml = .inOp (.pop1 .inbound))
    (he : s.empty .inbound = true) (hwr : s.ie.wr = true)
    (hturns : s.turns = .host (encode (.wrstb b)) :: .mainLoop :: ts) :
    ∃ t, Host.Core.run Sys2Proof.core 2 s = .next t ∧ t.ml = .idle ∧ t.empty .inbound = true ∧
      t.trace = .op (.pop .inbound) (.byte b) :: .write b :: s.trace := by
  have hi := hs.indicesOk .inbound
  have hpos := hs.cap_pos .inbound
  have hsize := (State.empty_iff_size hi).1 he
  have hf : s.full .inbound = false := State.not_full_of_size_lt hi (by omega)
  have hq : (s.pushAll .inbound [b]).queue .inbound = [some b] := by
    rw [State.queue_pushAll hi (by rw [List.length_singleton]; omega), State.queue_eq_nil_of_empty hi he]
    rfl
  have hwrite := exec_wrstb_push (s := { s with turns := .mainLoop :: ts }) (b := b) hwr hf hi.2
  obtain ⟨t, hrun, ht⟩ := runFrom_pop1_empties (c := .inbound)
    (s := (({ s with turns := ts } : State).pushAll .inbound [b]).observe (.write b)) (State.indicesOk_pushAll hi [b]) hq
  exact ⟨t, run_host_mainLoop hturns (decode_encode_wrstb b) rfl hwrite rfl hml hrun, ht⟩

/-- Settles O54: the read makes the room the PUSH waits for, the write brings the byte the POP waits for. -/
theorem hostLiftsHolds : Obligations.HostLiftsHolds := fun _ _ _ _ =>
  ⟨fun hs hml hf hrd hsr hv hturns => run_read_lifts_push hs hml hf hrd hsr hv hturns,
    fun hs hml he hwr hturns => run_write_lifts_pop hs hml he hwr hturns⟩

end Sys2Proof.Machine

/-!
SUPPORT. The status and mask operations as the main loop issues them (41_status_irq_ops.md R120 to R122), what they leave
unchanged, and who writes an enable bit (60_exceptions.md R156).
-/

namespace Sys2Proof.Machine

/-! ### STWR -/

/-- STWR of an idle main loop shows in SR and the trace (R120). -/
theorem exec_stwr_done {s : State} (hml : s.ml = .idle) (v : Byte) :
    exec (.stwr v) s = .next ((s.setSr v).observe (.op (.stwr v) .nothing)) := by
  rw [exec_stwr hml]
  exact congrArg _ (complete_of_idle (s := s.setSr v) hml _ _)

/-- Settles O19: the run is STWR's one micro-step. -/
theorem stwrWritesStatus : Obligations.StwrWritesStatus := fun _ v hml => exec_stwr_done hml v

/-- STWR leaves every cell but SR as it was (R120). -/
theorem exec_stwr_next {s t : State} {v : Byte} (h : exec (.stwr v) s = .next t) :
    t = { s with sr := t.sr, trace := t.trace } := by
  obtain rfl | ⟨hml, -⟩ := exec_mainLoop_next rfl h
  · rfl
  · cases (exec_stwr_done hml v).symm.trans h
    rfl

/-! ### IRQEN and IRQDIS -/

@[simp] theorem microOp_irqen1 (src : Source) : microOp (.irqen1 src) = irqenOf src := by cases src <;> rfl

@[simp] theorem microOp_irqdis1 (src : Source) : microOp (.irqdis1 src) = irqdisOf src := by cases src <;> rfl

@[simp] theorem irqenOf_agent (src : Source) : (irqenOf src).agent = .mainLoop := by cases src <;> rfl

@[simp] theorem irqdisOf_agent (src : Source) : (irqdisOf src).agent = .mainLoop := by cases src <;> rfl

/-- IRQEN of an idle main loop shows in the enable bit of its source and the trace (R121). -/
theorem exec_irqenOf_done {s : State} (hml : s.ml = .idle) (src : Source) :
    exec (irqenOf src) s = .next ((s.setIe src true).observe (.op (irqenOf src) .nothing)) := by
  rw [exec_irqenOf hml, complete_of_idle (s := s.setIe src true) hml, microOp_irqen1]

/-- IRQDIS of an idle main loop shows in the enable bit of its source and the trace (R122). -/
theorem exec_irqdisOf_done {s : State} (hml : s.ml = .idle) (src : Source) :
    exec (irqdisOf src) s = .next ((s.setIe src false).observe (.op (irqdisOf src) .nothing)) := by
  rw [exec_irqdisOf hml, complete_of_idle (s := s.setIe src false) hml, microOp_irqdis1]

/-- Settles O20: the three are IRQEN of each source. -/
theorem irqenEnables : Obligations.IrqenEnables := fun _ hml =>
  ⟨exec_irqenOf_done hml .rd, exec_irqenOf_done hml .wr, exec_irqenOf_done hml .mp⟩

/-- Settles O21: the three are IRQDIS of each source. -/
theorem irqdisMasks : Obligations.IrqdisMasks := fun _ hml =>
  ⟨exec_irqdisOf_done hml .rd, exec_irqdisOf_done hml .wr, exec_irqdisOf_done hml .mp⟩

@[simp] theorem Lines.set_get_self (l : Lines) (src : Source) : l.set src (l.get src) = l := by cases src <;> rfl

/-- IRQEN and IRQDIS leave every cell but the enable bit of their source as it was (R121, R122). -/
theorem exec_maskOp_next {s t : State} {src : Source}
    (h : exec (irqenOf src) s = .next t ∨ exec (irqdisOf src) s = .next t) :
    t = { s with ie := s.ie.set src (t.ie.get src), trace := t.trace } := by
  obtain rfl | ⟨b, o, rfl⟩ : t = s ∨ ∃ b o, t = (s.setIe src b).observe o := by
    rcases h with h | h
    · exact (exec_mainLoop_next (irqenOf_agent src) h).imp_right fun ⟨hml, _⟩ =>
        ⟨_, _, Host.Outcome.next.inj (h.symm.trans (exec_irqenOf_done hml src))⟩
    · exact (exec_mainLoop_next (irqdisOf_agent src) h).imp_right fun ⟨hml, _⟩ =>
        ⟨_, _, Host.Outcome.next.inj (h.symm.trans (exec_irqdisOf_done hml src))⟩
  · rw [Lines.set_get_self]
  · rw [State.observe_ie, State.setIe_ie, Lines.get_set_same]
    rfl

/-- Settles O32: STWR's frame, and that of the mask operations source by source. -/
theorem statusAndMaskFrame : Obligations.StatusAndMaskFrame := fun _ _ _ =>
  ⟨exec_stwr_next, exec_maskOp_next (src := .rd), exec_maskOp_next (src := .wr), exec_maskOp_next (src := .mp)⟩

/-! ### The writers of an enable bit -/

/-- IE is as before, or the newest entry of the trace is the mask operation that wrote it. -/
def IeKeptOrWritten (s t : State) : Prop :=
  t.ie = s.ie ∨ ∃ src,
    (t.ie = s.ie.set src true ∧ t.trace = .op (irqenOf src) .nothing :: s.trace) ∨
    (t.ie = s.ie.set src false ∧ t.trace = .op (irqdisOf src) .nothing :: s.trace)

theorem micro_go_ie {choice : Nat} {m m' : Micro} {s t : State} (hp : micro choice m s = .go m' t) : t.ie = s.ie := by
  obtain ⟨-, hie⟩ | ⟨v, rfl, -⟩ | ⟨src, rfl, -⟩ | ⟨src, rfl, -⟩ := micro_sr_ie (congrArg Progress.state hp)
  · exact hie
  · cases hp
  · cases hp
  · cases hp

theorem micro_done_ie {choice : Nat} {m : Micro} {res : Res} {s t : State} (hp : micro choice m s = .done res t) :
    IeKeptOrWritten s (complete m res t) := by
  obtain ⟨-, hie⟩ | ⟨v, -, rfl⟩ | ⟨src, rfl, -⟩ | ⟨src, rfl, -⟩ := micro_sr_ie (congrArg Progress.state hp)
  · exact .inl hie
  · exact .inl rfl
  · cases hp
    exact .inr ⟨src, .inl ⟨rfl, by simp⟩⟩
  · cases hp
    exact .inr ⟨src, .inr ⟨rfl, by simp⟩⟩

theorem oneMicro_ie {m : Micro} {s t : State} (h : oneMicro m s = .next t) : IeKeptOrWritten s t := by
  obtain ⟨-, rfl⟩ | ⟨m', u, hp, rfl⟩ | ⟨res, u, hp, rfl⟩ := settle_next.1 h
  · exact .inl rfl
  · exact .inl (micro_go_ie hp :)
  · exact (micro_done_ie hp :)

theorem IeKeptOrWritten.of_eq {s u t : State} (h : IeKeptOrWritten u t) (hie : u.ie = s.ie) (htrace : u.trace = s.trace) :
    IeKeptOrWritten s t := by
  unfold IeKeptOrWritten at h ⊢
  rwa [hie, htrace] at h

theorem runFrom_ie {m : Micro} {s t : State} (h : runFrom m s = .next t) : IeKeptOrWritten s t :=
  runMicros_induction (P := fun _ u => u.ie = s.ie ∧ u.trace = s.trace) (Q := IeKeptOrWritten s)
    (hold := fun _ _ hu => .inl hu.1)
    (go := fun _ _ _ _ hu hp =>
      ⟨(micro_go_ie hp).trans hu.1, (micro_trace (congrArg Progress.state hp)).trans hu.2⟩)
    (done := fun _ _ _ _ hu hp => (micro_done_ie hp).of_eq hu.1 hu.2)
    ⟨rfl, rfl⟩ h

/-- Everything a turn of the main loop can do to IE. -/
theorem takeTurn_mainLoop_ie {turn : Turn} {s t : State} (hturn : turn.isMainLoop = true) (h : takeTurn turn s = .next t) :
    IeKeptOrWritten s t := by
  cases turn with
  | mainLoop =>
    obtain ⟨m, -, hrun⟩ | ⟨-, -, rfl⟩ | ⟨-, d, ps, i, -, -, ha, hexec⟩ := mainLoopTurn_next h
    · exact runFrom_ie hrun
    · exact .inl rfl
    · obtain rfl | ⟨-, m, -, hrun⟩ := exec_mainLoop_next ha hexec
      · exact .inl rfl
      · exact (runFrom_ie hrun :)
  | micro =>
    obtain ⟨m, -, hm⟩ | ⟨-, -, rfl⟩ | ⟨-, d, ps, i, m, -, -, -, -, rfl⟩ := microTurn_next h
    · exact oneMicro_ie hm
    · exact .inl rfl
    · exact .inl rfl
  | host d | line d | deferred src => cases hturn

/-- MP is masked and the pseudo-command published in Inbound (R132). -/
def MediaMasked (s t : State) : Prop :=
  t.ie = s.ie.set .mp false ∧ t.slot .inbound (s.tail .inbound) = some s.par.hotplug ∧
    t.tail .inbound = s.nextIdx .inbound (s.tail .inbound)

theorem mediaHandler_mediaMasked {s t : State} (h : mediaHandler s = .ok t) : MediaMasked s t := by
  obtain ⟨-, u, hu, rfl⟩ := mediaHandler_ok.1 h
  obtain ⟨-, rfl⟩ := enqueue_ok.1 hu
  exact ⟨rfl, by simp, rfl⟩

/-- Of the handlers only the media line's writes IE (R130 to R132). -/
theorem HandlerRun.ie {s t : State} (h : HandlerRun s t) : t.ie = s.ie ∨ MediaMasked s t := by
  cases h with
  | none => exact .inl rfl
  | read _ h => exact .inl (congrArg State.ie (readHandler_frame h) :)
  | write _ h =>
    obtain ⟨-, ht⟩ | ht := writeHandler_frame h
    · exact .inl (congrArg State.ie ht :)
    · exact .inl (congrArg State.ie ht :)
  | media _ h => exact .inr (mediaHandler_mediaMasked h)

theorem HandlerTurn.ie {s t : State} (h : HandlerTurn s t) : t.ie = s.ie ∨ MediaMasked s t := by
  obtain ⟨pend, draws, u, hrun, ht⟩ := h
  rw [ht]
  exact (hrun.ie :)

/-- Everything a turn can do to IE. -/
theorem takeTurn_ie {turn : Turn} {s t : State} (h : takeTurn turn s = .next t) : IeKeptOrWritten s t ∨ MediaMasked s t := by
  cases hturn : turn.isMainLoop with
  | true => exact .inl (takeTurn_mainLoop_ie hturn h)
  | false => exact (takeTurn_handlerTurn hturn h).ie.imp_left .inl

/-- A step is a turn with the schedule moved on, which no clause about IE reads. -/
theorem step_ie {s t : State} (h : step s = .next t) : IeKeptOrWritten s t ∨ MediaMasked s t :=
  (takeTurn_ie (s := { s with turns := s.turns.tail }) h :)

/-- A write to one bit that changes a bit changes that bit, to what it writes. -/
theorem Lines.eq_of_get_set_ne {l : Lines} {src src' : Source} {b : Bool} (h : (l.set src b).get src' ≠ l.get src') :
    src' = src ∧ (l.set src b).get src' = b := by
  have hsrc : src' = src := by
    by_contra hne
    exact h (Lines.get_set_other l b hne)
  exact ⟨hsrc, hsrc ▸ Lines.get_set_same l src b⟩

/-- A step that changes an enable bit completed the mask operation that writes its new value, or masked MP by its handler. -/
theorem step_get_ie_ne {s t : State} {src : Source} (h : step s = .next t) (hne : t.ie.get src ≠ s.ie.get src) :
    (t.ie.get src = true ∧ t.trace = .op (irqenOf src) .nothing :: s.trace) ∨
    (t.ie.get src = false ∧ t.trace = .op (irqdisOf src) .nothing :: s.trace) ∨
    (t.ie.get src = false ∧ src = .mp ∧ MediaMasked s t) := by
  obtain (hie | ⟨src', ⟨hie, htrace⟩ | ⟨hie, htrace⟩⟩) | hmedia := step_ie h
  · exact absurd (congrArg (Lines.get · src) hie) hne
  · rw [hie] at hne ⊢
    obtain ⟨rfl, hbit⟩ := Lines.eq_of_get_set_ne hne
    exact .inl ⟨hbit, htrace⟩
  · rw [hie] at hne ⊢
    obtain ⟨rfl, hbit⟩ := Lines.eq_of_get_set_ne hne
    exact .inr (.inl ⟨hbit, htrace⟩)
  · rw [hmedia.1] at hne ⊢
    obtain ⟨rfl, hbit⟩ := Lines.eq_of_get_set_ne hne
    exact .inr (.inr ⟨hbit, rfl, hmedia⟩)

/-- Settles O43: what changed the bit wrote its new value. -/
theorem enableBitWriters : Obligations.EnableBitWriters := by
  refine fun s t src h => ⟨fun hold hnew => ?_, fun hold hnew => ?_⟩
  · obtain ⟨-, htrace⟩ | ⟨hbit, -⟩ | ⟨hbit, -⟩ := step_get_ie_ne h (src := src) (by simp [hold, hnew])
    · exact htrace
    · cases hnew.symm.trans hbit
    · cases hnew.symm.trans hbit
  · obtain ⟨hbit, -⟩ | ⟨-, htrace⟩ | ⟨-, hmp, -, hslot, htail⟩ := step_get_ie_ne h (src := src) (by simp [hold, hnew])
    · cases hnew.symm.trans hbit
    · exact .inl htrace
    · exact .inr ⟨hmp, hslot, htail⟩

end Sys2Proof.Machine

/-!
SUPPORT. The bus line handlers as the events that run them (42_bus_handlers.md R130 to R134): what a delivered edge drives and
stores, what each event leaves unchanged, delivered or masked, and why none of them waits.
-/

namespace Sys2Proof.Machine

/-! ### What an event can do -/

/-- Everything RDSTB can do when it answers a next state: the handler's byte is sampled, or a bus no one drives (R130, R157). -/
theorem exec_rdstb_next {s t : State} :
    exec .rdstb s = .next t ↔
      (s.ie.rd = true ∧ ∃ u v, readHandler s = .ok (v, u) ∧ t = u.observe (.read v)) ∨
      (s.ie.rd = false ∧ t = (maskedEdge .rd s).observe (.read (Config.freeByte s.draws))) := by
  show execRdstb s = .next t ↔ _
  simp [execRdstb, edge_next, answerRead_ok, State.enabled, Lines.get]

/-- Everything WRSTB can do when it answers a next state (R131, R157). -/
theorem exec_wrstb_next {b : Byte} {s t : State} :
    exec (.wrstb b) s = .next t ↔
      (s.ie.wr = true ∧ ∃ u, writeHandler b s = .ok u ∧ t = u.observe (.write b)) ∨
      (s.ie.wr = false ∧ t = (maskedEdge .wr s).observe (.write b)) := by
  show execWrstb b s = .next t ↔ _
  simp [execWrstb, edge_next, answerWrite_ok, State.enabled, Lines.get]

/-- Everything MPEDGE can do when it answers a next state (R132, R157). -/
theorem exec_mpedge_next {s t : State} :
    exec .mpedge s = .next t ↔
      (s.ie.mp = true ∧ ∃ u, mediaHandler s = .ok u ∧ t = u.observe .media) ∨
      (s.ie.mp = false ∧ t = (maskedEdge .mp s).observe .media) := by
  show execMpedge s = .next t ↔ _
  simp [execMpedge, edge_next, answerMedia_ok, State.enabled, Lines.get]

/-! ### RDSTB -/

/-- Settles O22: SR with its top bit set, then the oldest byte of Outbound, then the underrun code. -/
theorem rdstbSelects : Obligations.RdstbSelects := by
  refine fun s hrd => ⟨fun hsr => exec_rdstb_bypass hrd hsr, fun v hsr hne hh hv => ?_, fun hsr heq => ?_⟩
  · have he : s.empty .outbound = false := beq_eq_false_iff_ne.2 hne
    exact exec_rdstb_pop hrd hsr he hh hv
  · have he : s.empty .outbound = true := beq_iff_eq.2 heq
    exact exec_rdstb_empty hrd hsr he

/-- Everything a host read under a terminal SR can do when it answers a next state (R130). -/
theorem exec_rdstb_terminal {s t : State} (hrd : s.ie.rd = true) (hsr : statusBypass s.sr = false)
    (h : exec .rdstb s = .next t) :
    (s.empty .outbound = true ∧ t = s.observe (.read s.par.underrun)) ∨
    ∃ v, s.empty .outbound = false ∧ s.head .outbound < s.len .outbound ∧ s.slot .outbound (s.head .outbound) = some v ∧
      t = (s.setHead .outbound (s.nextIdx .outbound (s.head .outbound))).observe (.read v) := by
  obtain ⟨-, u, v, hv, rfl⟩ | ⟨hmask, -⟩ := exec_rdstb_next.1 h
  · obtain ⟨hbypass, -⟩ | ⟨-, he, rfl, rfl⟩ | ⟨-, he, hdeq⟩ := readHandler_ok.1 hv
    · cases hsr.symm.trans hbypass
    · exact .inl ⟨he, rfl⟩
    · obtain ⟨hh, hslot, rfl⟩ := dequeue_ok.1 hdeq
      exact .inr ⟨v, he, hh, hslot, rfl⟩
  · cases hrd.symm.trans hmask

/-- Settles O23: the bypass never looks at Outbound, and without it what is driven depends on Outbound alone. -/
theorem statusPreemptsData : Obligations.StatusPreemptsData := by
  refine fun s hrd => ⟨fun hsr => ⟨_, exec_rdstb_bypass hrd hsr, rfl, rfl⟩, fun t hsr h => ?_⟩
  obtain ⟨he, rfl⟩ | ⟨v, he, hh, hv, rfl⟩ := exec_rdstb_terminal hrd hsr h
  · exact ⟨_, rfl, .inl rfl, fun w hw => exec_rdstb_empty (s := { s with sr := w }) hrd hw he⟩
  · exact ⟨v, rfl, .inr hv, fun w hw => exec_rdstb_pop (s := { s with sr := w }) hrd hw he hh hv⟩

/-! ### WRSTB -/

/-- Settles O24: the full test decides between the push and the overrun report. -/
theorem wrstbPushesOrReports : Obligations.WrstbPushesOrReports := by
  refine fun s b hwr => ⟨fun hne ht => ?_, fun heq => ?_⟩
  · have ht : s.tail .inbound < s.len .inbound := ht
    have hf : s.full .inbound = false := beq_eq_false_iff_ne.2 hne
    rw [exec_wrstb_push hwr hf ht, State.pushAll_singleton ht]
    rfl
  · have hf : s.full .inbound = true := beq_iff_eq.2 heq
    exact exec_wrstb_full hwr hf b

/-! ### MPEDGE -/

/-- A media edge on an Inbound that is not full publishes the pseudo-command and masks MP (R132). -/
theorem exec_mpedge_push {s : State} (hmp : s.ie.mp = true) (hf : s.full .inbound = false)
    (ht : s.tail .inbound < s.len .inbound) :
    exec .mpedge s = .next (((s.pushAll .inbound [s.par.hotplug]).setIe .mp false).observe .media) := by
  have hmedia : mediaHandler s = .ok ((s.pushAll .inbound [s.par.hotplug]).setIe .mp false) :=
    mediaHandler_ok.2 ⟨hf, _, enqueue_ok.2 ⟨ht, State.pushAll_singleton ht _⟩, rfl⟩
  exact exec_mpedge_next.2 (.inl ⟨hmp, _, hmedia, rfl⟩)

/-- Settles O25: a published block of one byte is the statement's store and advance. -/
theorem mpedgePushesAndMasksItself : Obligations.MpedgePushesAndMasksItself := by
  intro s hmp hne ht
  have ht : s.tail .inbound < s.len .inbound := ht
  have hf : s.full .inbound = false := beq_eq_false_iff_ne.2 hne
  rw [exec_mpedge_push hmp hf ht, State.pushAll_singleton ht]
  rfl

/-- A fault of the handler is the fault of the edge that delivers it (R153). -/
theorem edge_fault {src : Source} {handler : State → Except Fault (Obs × State)} {masked : State → Obs} {s : State}
    {f : Fault} (he : s.enabled src = true) (hf : handler s = .error f) : edge src handler masked s = .fault f := by
  simp [edge, he, hf]

/-- A media edge on a full Inbound faults (R132, R153). -/
theorem exec_mpedge_full {s : State} (hmp : s.ie.mp = true) (hf : s.full .inbound = true) :
    exec .mpedge s = .fault .hotplugPushOnFull := by
  show execMpedge s = _
  have hmedia : mediaHandler s = .error .hotplugPushOnFull := if_pos hf
  exact edge_fault hmp (by simp [answerMedia, hmedia])

/-- Settles O26: the full test comes before the push. -/
theorem mpedgeOnFullFaults : Obligations.MpedgeOnFullFaults := by
  intro s hmp heq
  have hf : s.full .inbound = true := beq_iff_eq.2 heq
  exact exec_mpedge_full hmp hf

/-! ### What an event leaves unchanged -/

theorem enqueue_slot_other {c : Channel} {b : Byte} {s t : State} (h : enqueue c b s = .ok t) {a : Nat} (ha : a ≠ s.tail c) :
    t.slot c a = s.slot c a := by
  obtain ⟨-, rfl⟩ := enqueue_ok.1 h
  rw [State.setTail_slot, State.withSlot_slot_other s c b ha]

/-- The write-strobe handler writes no slot but the one at Inbound's `tail` (R131). -/
theorem writeHandler_slot_other {b : Byte} {s t : State} (h : writeHandler b s = .ok t) {a : Nat} (ha : a ≠ s.tail .inbound) :
    t.slot .inbound a = s.slot .inbound a := by
  obtain ⟨-, rfl⟩ | ⟨-, hpush⟩ := writeHandler_ok.1 h
  · rfl
  · exact enqueue_slot_other hpush ha

/-- The media-presence handler writes no slot but the one at Inbound's `tail` (R132). -/
theorem mediaHandler_slot_other {s t : State} (h : mediaHandler s = .ok t) {a : Nat} (ha : a ≠ s.tail .inbound) :
    t.slot .inbound a = s.slot .inbound a := by
  obtain ⟨-, u, hpush, rfl⟩ := mediaHandler_ok.1 h
  exact enqueue_slot_other hpush ha

/-- RDSTB, delivered or masked, changes no cell but `head[OUT]` and `PEND[RD]` (R130, R157). -/
theorem exec_rdstb_frame {s t : State} (h : exec .rdstb s = .next t) :
    t = { s with
      outb := { s.outb with head := t.outb.head }, pend := { s.pend with rd := t.pend.rd }
      draws := t.draws, trace := t.trace } := by
  obtain ⟨-, u, v, hv, rfl⟩ | ⟨-, rfl⟩ := exec_rdstb_next.1 h
  · rw [readHandler_frame hv]
    rfl
  · rfl

/-- WRSTB, delivered or masked, changes no cell but SR, Inbound's slots and `tail`, and `PEND[WR]` (R131, R157). -/
theorem exec_wrstb_frame {b : Byte} {s t : State} (h : exec (.wrstb b) s = .next t) :
    t = { s with
      inb := { s.inb with buf := t.inb.buf, tail := t.inb.tail }, sr := t.sr, pend := { s.pend with wr := t.pend.wr }
      draws := t.draws, trace := t.trace } := by
  obtain ⟨-, u, hu, rfl⟩ | ⟨-, rfl⟩ := exec_wrstb_next.1 h
  · obtain ⟨-, hframe⟩ | hframe := writeHandler_frame hu
    · rw [hframe]
      rfl
    · rw [hframe]
      rfl
  · rfl

theorem exec_wrstb_slot_other {b : Byte} {s t : State} (h : exec (.wrstb b) s = .next t) {a : Nat} (ha : a ≠ s.tail .inbound) :
    t.slot .inbound a = s.slot .inbound a := by
  obtain ⟨-, u, hu, rfl⟩ | ⟨-, rfl⟩ := exec_wrstb_next.1 h
  · exact writeHandler_slot_other hu ha
  · rfl

/-- MPEDGE, delivered or masked, changes no cell but Inbound's slots and `tail`, `IE[MP]` and `PEND[MP]` (R132, R157). -/
theorem exec_mpedge_frame {s t : State} (h : exec .mpedge s = .next t) :
    t = { s with
      inb := { s.inb with buf := t.inb.buf, tail := t.inb.tail }, ie := { s.ie with mp := t.ie.mp }
      pend := { s.pend with mp := t.pend.mp }, draws := t.draws, trace := t.trace } := by
  obtain ⟨-, u, hu, rfl⟩ | ⟨-, rfl⟩ := exec_mpedge_next.1 h
  · rw [mediaHandler_frame hu]
    rfl
  · rfl

theorem exec_mpedge_slot_other {s t : State} (h : exec .mpedge s = .next t) {a : Nat} (ha : a ≠ s.tail .inbound) :
    t.slot .inbound a = s.slot .inbound a := by
  obtain ⟨-, u, hu, rfl⟩ | ⟨-, rfl⟩ := exec_mpedge_next.1 h
  · exact mediaHandler_slot_other hu ha
  · rfl

/-- Settles O33, event by event. -/
theorem handlerFrame : Obligations.HandlerFrame := fun _ _ _ =>
  ⟨exec_rdstb_frame, fun h => ⟨exec_wrstb_frame h, fun _ => exec_wrstb_slot_other h⟩,
    fun h => ⟨exec_mpedge_frame h, fun _ => exec_mpedge_slot_other h⟩⟩

/-! ### Handlers never wait -/

/-- With RD enabled no CLEAR of Outbound is under way, so the byte a pop wants is there (R38, R106). -/
theorem State.Inv.slot_head_outbound {s : State} (hs : s.Inv) (hrd : s.ie.rd = true) (he : s.empty .outbound = false) :
    ∃ v, s.slot .outbound (s.head .outbound) = some v := by
  have hmask : s.sourcesMasked .outbound = false := by simp [State.sourcesMasked, hrd]
  exact State.slot_head_isSome (hs.indicesOk .outbound) (hs.liveWritten (hs.not_clear2 hmask)) he

theorem exec_rdstb_completes {s : State} (hs : s.Inv) : ∃ t, exec .rdstb s = .next t := by
  cases hrd : s.ie.rd with
  | true =>
    cases hsr : statusBypass s.sr with
    | true => exact ⟨_, exec_rdstb_bypass hrd hsr⟩
    | false =>
      cases he : s.empty .outbound with
      | true => exact ⟨_, exec_rdstb_empty hrd hsr he⟩
      | false =>
        obtain ⟨v, hv⟩ := hs.slot_head_outbound hrd he
        exact ⟨_, exec_rdstb_pop hrd hsr he (hs.indicesOk .outbound).1 hv⟩
  | false => exact ⟨_, exec_rdstb_next.2 (.inr ⟨hrd, rfl⟩)⟩

theorem exec_wrstb_completes {s : State} (ht : s.tail .inbound < s.len .inbound) (b : Byte) :
    ∃ t, exec (.wrstb b) s = .next t := by
  cases hwr : s.ie.wr with
  | true =>
    cases hf : s.full .inbound with
    | true => exact ⟨_, exec_wrstb_full hwr hf b⟩
    | false => exact ⟨_, exec_wrstb_push hwr hf ht⟩
  | false => exact ⟨_, exec_wrstb_next.2 (.inr ⟨hwr, rfl⟩)⟩

theorem exec_mpedge_completes {s : State} (ht : s.tail .inbound < s.len .inbound)
    (hroom : s.ie.mp = true → s.full .inbound = false) : ∃ t, exec .mpedge s = .next t := by
  cases hmp : s.ie.mp with
  | true => exact ⟨_, exec_mpedge_push hmp (hroom hmp) ht⟩
  | false => exact ⟨_, exec_mpedge_next.2 (.inr ⟨hmp, rfl⟩)⟩

/-- Settles O40: each event completes, and ML is in the frame of each. -/
theorem handlersNeverWait : Obligations.HandlersNeverWait := by
  refine fun s b hs => ⟨?_, ?_, fun hroom => ?_⟩
  · obtain ⟨t, ht⟩ := exec_rdstb_completes hs
    exact ⟨t, ht, (congrArg State.ml (exec_rdstb_frame ht) :)⟩
  · obtain ⟨t, ht⟩ := exec_wrstb_completes (hs.indicesOk .inbound).2 b
    exact ⟨t, ht, (congrArg State.ml (exec_wrstb_frame ht) :)⟩
  · obtain ⟨t, ht⟩ := exec_mpedge_completes (hs.indicesOk .inbound).2 hroom
    exact ⟨t, ht, (congrArg State.ml (exec_mpedge_frame ht) :)⟩

end Sys2Proof.Machine

/-!
SUPPORT. The exceptions (60_exceptions.md R155 to R160): an edge that meets its source masked, the deferred run of a latched edge,
and what a turn outside the main loop may touch, source by source.
-/

namespace Sys2Proof.Machine

/-! ### What handlers leave to the main loop -/

/-- A handler saves and restores nothing of the main loop's (R159, R160). -/
theorem HandlerRun.mainLoop_eq {s t : State} (h : HandlerRun s t) : t.ml = s.ml ∧ t.prog = s.prog ∧ t.turns = s.turns := by
  cases h with
  | none => exact ⟨rfl, rfl, rfl⟩
  | read _ h =>
    rw [readHandler_frame h]
    exact ⟨rfl, rfl, rfl⟩
  | write _ h =>
    obtain ⟨-, ht⟩ | ht := writeHandler_frame h
    · rw [ht]
      exact ⟨rfl, rfl, rfl⟩
    · rw [ht]
      exact ⟨rfl, rfl, rfl⟩
  | media _ h =>
    rw [mediaHandler_frame h]
    exact ⟨rfl, rfl, rfl⟩

theorem HandlerTurn.mainLoop_eq {s t : State} (h : HandlerTurn s t) :
    t.ml = s.ml ∧ t.prog = s.prog ∧ t.turns = s.turns := by
  obtain ⟨pend, draws, u, hrun, ht⟩ := h
  rw [ht]
  exact (hrun.mainLoop_eq :)

theorem Lines.get_of_get_set_false {l : Lines} {src q : Source} (h : (l.set src false).get q = true) : l.get q = true := by
  by_cases hq : q = src
  · rw [hq, Lines.get_set_same] at h
    cases h
  · rwa [Lines.get_set_other l false hq] at h

/-- The only enable bit a handler writes is the one the media line's clears (R132). -/
theorem HandlerTurn.enabled_of_enabled {s t : State} (h : HandlerTurn s t) {q : Source} (hq : t.ie.get q = true) :
    s.ie.get q = true := by
  obtain hie | ⟨hie, -, -⟩ := h.ie
  · rwa [hie] at hq
  · rw [hie] at hq
    exact Lines.get_of_get_set_false hq

/-- Settles O44: a turn outside the main loop runs one handler at most. -/
theorem handlersLeaveMainLoopAlone : Obligations.HandlersLeaveMainLoopAlone := by
  intro s t hturn h
  have hhandler : HandlerTurn { s with turns := s.turns.tail } t := takeTurn_handlerTurn hturn h
  obtain ⟨hml, hprog, hturns⟩ := hhandler.mainLoop_eq
  exact ⟨hml, hprog, hturns, fun _ => hhandler.enabled_of_enabled⟩

/-! ### A masked edge -/

theorem State.latches_of_lost {s : State} (h : s.par.maskedEdge = .lost) : s.latches = false := by
  simp [State.latches, h]

theorem State.latches_of_latched {s : State} (h : s.par.maskedEdge = .latched) : s.latches = true := by
  simp [State.latches, h]

/-- Settles O27: the latching is the model's `latches`, the same for each source. -/
theorem maskedEdgeLostOrLatched : Obligations.MaskedEdgeLostOrLatched := fun s _ =>
  ⟨s.latches, State.latches_of_lost, State.latches_of_latched, fun hrd => exec_rdstb_next.2 (.inr ⟨hrd, rfl⟩),
    fun hwr => exec_wrstb_next.2 (.inr ⟨hwr, rfl⟩), fun hmp => exec_mpedge_next.2 (.inr ⟨hmp, rfl⟩)⟩

/-! ### A deferred run -/

/-- RD's deferred run drops the byte the read-strobe handler drives (R157). -/
theorem deferredHandler_rd_ok {s t : State} : deferredHandler .rd s = .ok t ↔ ∃ v, readHandler s = .ok (v, t) := by
  unfold deferredHandler
  cases readHandler s with
  | ok p => simp [Prod.ext_iff]
  | error f => simp

theorem State.deferredEnabled_iff {s : State} {src : Source} :
    s.deferredEnabled src = true ↔ s.ie.get src = true ∧ s.pend.get src = true := Bool.and_eq_true_iff

theorem State.deferredEnabled_eq_false_iff {s : State} {src : Source} :
    s.deferredEnabled src = false ↔ s.ie.get src = false ∨ s.pend.get src = false := Bool.and_eq_false_iff

/-- An enabled deferred run whose handler completes (R157). -/
theorem deferredRun_done {src : Source} {s t : State} (hie : s.ie.get src = true) (hpend : s.pend.get src = true)
    (h : deferredHandler src (s.setPend src false) = .ok t) : deferredRun src s = .next t :=
  deferredRun_next.2 (.inl ⟨State.deferredEnabled_iff.2 ⟨hie, hpend⟩, h⟩)

/-- An enabled deferred run whose handler faults (R153, R157). -/
theorem deferredRun_fault {src : Source} {s : State} {f : Fault} (hie : s.ie.get src = true) (hpend : s.pend.get src = true)
    (h : deferredHandler src (s.setPend src false) = .error f) : deferredRun src s = .fault f := by
  simp [deferredRun, State.deferredEnabled_iff.2 ⟨hie, hpend⟩, h]

theorem deferredRun_rd_pop {s : State} {v : Byte} (hie : s.ie.rd = true) (hpend : s.pend.rd = true)
    (hsr : statusBypass s.sr = false) (he : s.empty .outbound = false) (hh : s.head .outbound < s.len .outbound)
    (hv : s.slot .outbound (s.head .outbound) = some v) :
    deferredRun .rd s =
      .next ((s.setPend .rd false).setHead .outbound (s.nextIdx .outbound (s.head .outbound))) := by
  have hpop : readHandler (s.setPend .rd false) = .ok (v, _) :=
    readHandler_ok.2 (.inr (.inr ⟨hsr, he, dequeue_ok.2 ⟨hh, hv, rfl⟩⟩))
  exact deferredRun_done hie hpend (deferredHandler_rd_ok.2 ⟨v, hpop⟩)

/-- Where the read-strobe handler pops nothing, RD's deferred run has no effect but its pending bit (R130, R157). -/
theorem deferredRun_rd_noPop {s : State} (hie : s.ie.rd = true) (hpend : s.pend.rd = true)
    (h : statusBypass s.sr = true ∨ s.empty .outbound = true) : deferredRun .rd s = .next (s.setPend .rd false) := by
  refine deferredRun_done hie hpend (deferredHandler_rd_ok.2 ?_)
  cases hsr : statusBypass s.sr with
  | true => exact ⟨s.sr, readHandler_ok.2 (.inl ⟨hsr, rfl, rfl⟩)⟩
  | false =>
    have he : s.empty .outbound = true := h.resolve_left (by simp [hsr])
    exact ⟨s.par.underrun, readHandler_ok.2 (.inr (.inl ⟨hsr, he, rfl, rfl⟩))⟩

theorem deferredRun_wr_push {s : State} (hie : s.ie.wr = true) (hpend : s.pend.wr = true) (hf : s.full .inbound = false)
    (ht : s.tail .inbound < s.len .inbound) :
    deferredRun .wr s = .next (((s.setPend .wr false).drawn.withSlot .inbound (s.tail .inbound)
      (Config.freeByte s.draws)).setTail .inbound (s.nextIdx .inbound (s.tail .inbound))) := by
  have hpush : writeHandler (Config.freeByte s.draws) (s.setPend .wr false).drawn = .ok _ :=
    writeHandler_ok.2 (.inr ⟨hf, enqueue_ok.2 ⟨ht, rfl⟩⟩)
  exact deferredRun_done hie hpend hpush

theorem deferredRun_wr_full {s : State} (hie : s.ie.wr = true) (hpend : s.pend.wr = true) (hf : s.full .inbound = true) :
    deferredRun .wr s = .next ((s.setPend .wr false).drawn.setSr s.par.overrun) := by
  have hover : writeHandler (Config.freeByte s.draws) (s.setPend .wr false).drawn = .ok _ :=
    writeHandler_ok.2 (.inl ⟨hf, rfl⟩)
  exact deferredRun_done hie hpend hover

theorem deferredRun_mp_push {s : State} (hie : s.ie.mp = true) (hpend : s.pend.mp = true) (hf : s.full .inbound = false)
    (ht : s.tail .inbound < s.len .inbound) :
    deferredRun .mp s = .next ((((s.setPend .mp false).withSlot .inbound (s.tail .inbound) s.par.hotplug).setTail .inbound
      (s.nextIdx .inbound (s.tail .inbound))).setIe .mp false) := by
  have hpush : mediaHandler (s.setPend .mp false) = .ok _ := mediaHandler_ok.2 ⟨hf, _, enqueue_ok.2 ⟨ht, rfl⟩, rfl⟩
  exact deferredRun_done hie hpend hpush

theorem deferredRun_mp_full {s : State} (hie : s.ie.mp = true) (hpend : s.pend.mp = true) (hf : s.full .inbound = true) :
    deferredRun .mp s = .fault .hotplugPushOnFull := by
  have hmedia : mediaHandler (s.setPend .mp false) = .error .hotplugPushOnFull := if_pos hf
  exact deferredRun_fault hie hpend hmedia

/-- On an empty schedule a deferred run that is enabled comes before the main loop (log 8). -/
theorem step_deferred_of_nil {s : State} {q : Source} (hturns : s.turns = []) (hq : s.deferredEnabled q = true) :
    ∃ src, s.deferredEnabled src = true ∧ step s = deferredRun src s := by
  obtain ⟨src, hown, hsrc⟩ | ⟨-, hnone⟩ := ownTurn_cases s
  · have hs : { s with turns := s.turns.tail } = s := by rw [hturns, List.tail_nil, ← hturns]
    refine ⟨src, hsrc, ?_⟩
    rw [step_eq_takeTurn, State.dueTurn_nil hturns, hown, hs]
    rfl
  · cases hq.symm.trans (hnone q)

/-- Settles O28, branch by branch of the three handlers, then the two ways a deferred run comes to be due. -/
theorem deferredRunServesLatchedEdge : Obligations.DeferredRunServesLatchedEdge := by
  refine fun s => ⟨fun hie hpend hsr hne hh hslot => ?_, fun hie hpend h => ?_, fun hie hpend hne ht => ?_,
    fun hie hpend heq => ?_, fun hie hpend hne ht => ?_, fun hie hpend heq => ?_, fun src ts hturns => ?_,
    fun q hturns hie hpend => ?_⟩
  · have he : s.empty .outbound = false := beq_eq_false_iff_ne.2 hne
    obtain ⟨v, hv⟩ := Option.isSome_iff_exists.1 hslot
    exact deferredRun_rd_pop hie hpend hsr he hh hv
  · exact deferredRun_rd_noPop hie hpend (h.imp_right beq_iff_eq.2)
  · have hf : s.full .inbound = false := beq_eq_false_iff_ne.2 hne
    exact deferredRun_wr_push hie hpend hf ht
  · have hf : s.full .inbound = true := beq_iff_eq.2 heq
    exact deferredRun_wr_full hie hpend hf
  · have hf : s.full .inbound = false := beq_eq_false_iff_ne.2 hne
    exact deferredRun_mp_push hie hpend hf ht
  · have hf : s.full .inbound = true := beq_iff_eq.2 heq
    exact deferredRun_mp_full hie hpend hf
  · have hstep : step s = deferredRun src { s with turns := ts } := step_of_turns hturns
    refine ⟨hstep, fun hoff => hstep.trans (deferredRun_next.2 (.inr ⟨?_, rfl⟩))⟩
    exact State.deferredEnabled_eq_false_iff.2 hoff
  · obtain ⟨src, hsrc, hstep⟩ := step_deferred_of_nil hturns (State.deferredEnabled_iff.2 ⟨hie, hpend⟩)
    obtain ⟨hie', hpend'⟩ := State.deferredEnabled_iff.1 hsrc
    exact ⟨src, hie', hpend', hstep⟩

/-! ### Source by source -/

/-- No cell but the pending bit of `src` differs; the draw counter and the trace aside (R157). -/
def OnlyPending (src : Source) (s t : State) : Prop :=
  t = { s with pend := s.pend.set src (t.pend.get src), draws := t.draws, trace := t.trace }

/-- No cell but those the handler of `src` writes, and PEND, differs (R64, R130 to R132). -/
def OnlyHandlerCells : Source → State → State → Prop
  | .rd, s, t => t = { s with outb := t.outb, pend := t.pend, draws := t.draws, trace := t.trace }
  | .wr, s, t => t = { s with inb := t.inb, sr := t.sr, pend := t.pend, draws := t.draws, trace := t.trace }
  | .mp, s, t => t = { s with inb := t.inb, ie := t.ie, pend := t.pend, draws := t.draws, trace := t.trace }

/-- What a turn that concerns `src` may do: touch the cells of its handler only while it is enabled (R155, R156). -/
def SourceTurn (src : Source) (s t : State) : Prop :=
  OnlyPending src s t ∨ (s.ie.get src = true ∧ OnlyHandlerCells src s t)

theorem maskedEdge_onlyPending (src : Source) (s : State) (o : Obs) : OnlyPending src s ((maskedEdge src s).observe o) := by
  simp only [OnlyPending, maskedEdge, State.observe, Lines.get_set_same]

/-- PEND and the draw counter before a handler's run, and the trace after it, are free. -/
theorem OnlyHandlerCells.of_withPend {src : Source} {s u : State} {p : Lines} {k : Nat}
    (h : OnlyHandlerCells src { s with pend := p, draws := k } u) (tr : List Obs) :
    OnlyHandlerCells src s { u with trace := tr } := by
  cases src with
  | rd | wr | mp => exact congrArg (fun v : State => { v with trace := tr }) h

theorem readHandler_onlyHandlerCells {s t : State} {v : Byte} (h : readHandler s = .ok (v, t)) : OnlyHandlerCells .rd s t := by
  rw [readHandler_frame h]
  rfl

theorem writeHandler_onlyHandlerCells {s t : State} {b : Byte} (h : writeHandler b s = .ok t) : OnlyHandlerCells .wr s t := by
  obtain ⟨-, ht⟩ | ht := writeHandler_frame h
  · rw [ht]
    rfl
  · rw [ht]
    rfl

theorem mediaHandler_onlyHandlerCells {s t : State} (h : mediaHandler s = .ok t) : OnlyHandlerCells .mp s t := by
  rw [mediaHandler_frame h]
  rfl

theorem deferredHandler_onlyHandlerCells {src : Source} {s t : State} (h : deferredHandler src s = .ok t) :
    OnlyHandlerCells src s t := by
  cases src with
  | rd =>
    obtain ⟨v, hv⟩ := deferredHandler_rd_ok.1 h
    exact readHandler_onlyHandlerCells hv
  | wr => exact (writeHandler_onlyHandlerCells (s := s.drawn) h).of_withPend t.trace
  | mp => exact mediaHandler_onlyHandlerCells h

/-- An event concerns the source of its edge, delivered or masked (R156, R157). -/
theorem exec_event_sourceTurn {i : Instr} {src : Source} {s t : State} (hsrc : eventSource i = some src)
    (h : exec i s = .next t) : SourceTurn src s t := by
  cases i with
  | rdstb =>
    cases hsrc
    obtain ⟨hrd, u, v, hv, rfl⟩ | ⟨-, rfl⟩ := exec_rdstb_next.1 h
    · exact .inr ⟨hrd, (readHandler_onlyHandlerCells hv).of_withPend _⟩
    · exact .inl (maskedEdge_onlyPending _ _ _)
  | wrstb b =>
    cases hsrc
    obtain ⟨hwr, u, hu, rfl⟩ | ⟨-, rfl⟩ := exec_wrstb_next.1 h
    · exact .inr ⟨hwr, (writeHandler_onlyHandlerCells hu).of_withPend _⟩
    · exact .inl (maskedEdge_onlyPending _ _ _)
  | mpedge =>
    cases hsrc
    obtain ⟨hmp, u, hu, rfl⟩ | ⟨-, rfl⟩ := exec_mpedge_next.1 h
    · exact .inr ⟨hmp, (mediaHandler_onlyHandlerCells hu).of_withPend _⟩
    · exact .inl (maskedEdge_onlyPending _ _ _)
  | _ => cases hsrc

theorem deferredRun_sourceTurn {src : Source} {s t : State} (h : deferredRun src s = .next t) : SourceTurn src s t := by
  obtain ⟨he, hrun⟩ | ⟨-, rfl⟩ := deferredRun_next.1 h
  · obtain ⟨hie, -⟩ := State.deferredEnabled_iff.1 he
    exact .inr ⟨hie, (deferredHandler_onlyHandlerCells hrun).of_withPend t.trace⟩
  · exact .inl (by rw [OnlyPending, Lines.set_get_self])

/-- An operation that is not the main loop's is an edge on a source's line (R155). -/
theorem exists_eventSource {i : Instr} (ha : i.agent ≠ .mainLoop) : ∃ src, eventSource i = some src := by
  cases i with
  | rdstb | wrstb _ | mpedge => exact ⟨_, rfl⟩
  | _ => exact absurd rfl ha

/-- A turn outside the main loop that answers a next state concerns a source, as an edge on its line or as its deferred run. -/
theorem takeTurn_sourceTurn {turn : Turn} {s t : State} (hturn : turn.isMainLoop = false) (h : takeTurn turn s = .next t) :
    ∃ src, turn.source = some src ∧ SourceTurn src s t := by
  cases turn with
  | mainLoop | micro => cases hturn
  | host d | line d =>
    obtain ⟨i, hd, ha, hrun⟩ := issueBy_next.1 h
    obtain ⟨src, hsrc⟩ := exists_eventSource (i := i) (by simp [ha])
    exact ⟨src, (Turn.source_host_of_decode hd).trans hsrc, exec_event_sourceTurn hsrc hrun⟩
  | deferred src => exact ⟨src, rfl, deferredRun_sourceTurn h⟩

theorem Turn.isMainLoop_of_source {turn : Turn} {src : Source} (h : turn.source = some src) : turn.isMainLoop = false := by
  cases turn with
  | mainLoop | micro => cases h
  | host d | line d | deferred src => rfl

/-- Outside the main loop Outbound is RD's, SR WR's, Inbound WR's and MP's, IE MP's, each while enabled (R64, R155). -/
theorem SourceTurn.cells {src : Source} {s t : State} (h : SourceTurn src s t) :
    (t.outb = s.outb ∨ (src = .rd ∧ s.ie.rd = true)) ∧ (t.sr = s.sr ∨ (src = .wr ∧ s.ie.wr = true)) ∧
    (t.inb = s.inb ∨ (src = .wr ∧ s.ie.wr = true) ∨ (src = .mp ∧ s.ie.mp = true)) ∧
    (t.ie = s.ie ∨ (src = .mp ∧ s.ie.mp = true)) := by
  obtain ht | ⟨hie, ht⟩ := h
  · rw [ht]
    exact ⟨.inl rfl, .inl rfl, .inl rfl, .inl rfl⟩
  · cases src with
    | rd =>
      rw [ht]
      exact ⟨.inr ⟨rfl, hie⟩, .inl rfl, .inl rfl, .inl rfl⟩
    | wr =>
      rw [ht]
      exact ⟨.inl rfl, .inr ⟨rfl, hie⟩, .inr (.inl ⟨rfl, hie⟩), .inl rfl⟩
    | mp =>
      rw [ht]
      exact ⟨.inl rfl, .inl rfl, .inr (.inr ⟨rfl, hie⟩), .inr ⟨rfl, hie⟩⟩

/-- Settles O45: the turn is of one source, whose handler runs only while it is enabled. -/
theorem maskedSourceTouchesNothing : Obligations.MaskedSourceTouchesNothing := by
  intro s t h
  have hsource (hturn : s.dueTurn.isMainLoop = false) :
      ∃ src, s.dueTurn.source = some src ∧ SourceTurn src { s with turns := s.turns.tail } t :=
    takeTurn_sourceTurn hturn h
  refine ⟨fun src hsrc hmask => ?_, fun hturn => ?_⟩
  · obtain ⟨src', hsrc', hpend | ⟨hie, -⟩⟩ := hsource (Turn.isMainLoop_of_source hsrc)
    · cases hsrc.symm.trans hsrc'
      exact hpend
    · cases hsrc.symm.trans hsrc'
      cases hmask.symm.trans hie
  · obtain ⟨src, hsrc, hrun⟩ := hsource hturn
    rw [hsrc]
    simpa only [Option.some.injEq] using hrun.cells

/-! ### Two edges at once -/

theorem step_rdstb_bypass {s : State} {ts : List Turn} (hturns : s.turns = .host (encode .rdstb) :: ts) (hrd : s.ie.rd = true)
    (hsr : statusBypass s.sr = true) : step s = .next (({ s with turns := ts } : State).observe (.read s.sr)) :=
  (step_host hturns decode_encode_rdstb rfl).trans (exec_rdstb_bypass (s := { s with turns := ts }) hrd hsr)

/-- The read first: the host samples the old SR (R158, V75). -/
theorem run_read_write {s : State} {b : Byte} {ts : List Turn}
    (hturns : s.turns = .host (encode .rdstb) :: .host (encode (.wrstb b)) :: ts) (hrd : s.ie.rd = true)
    (hsr : statusBypass s.sr = true) (hwr : s.ie.wr = true) (hf : s.full .inbound = true) :
    Host.Core.run Sys2Proof.core 2 s =
      .next (((({ s with turns := ts } : State).observe (.read s.sr)).setSr s.par.overrun).observe (.write b)) :=
  (run_succ (step_rdstb_bypass hturns hrd hsr)).trans (run_succ (n := 0) (step_wrstb_full rfl hwr hf))

/-- The write first: the host samples the overrun code (R158, V75). -/
theorem run_write_read {s : State} {b : Byte} {ts : List Turn}
    (hturns : s.turns = .host (encode (.wrstb b)) :: .host (encode .rdstb) :: ts) (hrd : s.ie.rd = true)
    (hover : statusBypass s.par.overrun = true) (hwr : s.ie.wr = true) (hf : s.full .inbound = true) :
    Host.Core.run Sys2Proof.core 2 s =
      .next (((({ s with turns := ts } : State).setSr s.par.overrun).observe (.write b)).observe (.read s.par.overrun)) :=
  (run_succ (step_wrstb_full hturns hwr hf)).trans (run_succ (n := 0) (step_rdstb_bypass rfl hrd hover))

/-- Settles O56: each read drives the SR of its turn, and the overrun report of the write comes after or before it. -/
theorem simultaneousEdgesHaveBothOrders : Obligations.SimultaneousEdgesHaveBothOrders :=
  fun s _ _ hover hrd hwr hf hsr =>
    ⟨⟨_, run_read_write (s := { s with turns := _ }) rfl hrd hsr hwr hf, rfl, rfl⟩,
      ⟨_, run_write_read (s := { s with turns := _ }) rfl hrd hover hwr hf, rfl, rfl⟩⟩

end Sys2Proof.Machine

/-!
SUPPORT. The holds that nothing can lift (70_reset_and_hazards.md R194, R197), which a main-loop turn tries in vain and a handler's
run keeps, and the boot order from reset (R191).
-/

namespace Sys2Proof.Machine

/-! ### The conditions of a hold read the parameters and the channel -/

theorem State.full_congr {s t : State} {c : Channel} (hpar : t.par = s.par) (hch : t.chan c = s.chan c) :
    t.full c = s.full c := by
  simp only [State.full, State.fullOfIdx, State.nextIdx, State.len, State.cap_congr hpar, State.head, State.tail, hch]

theorem State.free_congr {s t : State} {c : Channel} (hpar : t.par = s.par) (hch : t.chan c = s.chan c) :
    t.free c = s.free c := by
  simp only [State.free, State.size, State.sizeOfIdx, State.len, State.cap_congr hpar, State.head, State.tail, hch]

theorem State.empty_congr {s t : State} {c : Channel} (hch : t.chan c = s.chan c) : t.empty c = s.empty c := by
  simp only [State.empty, State.head, State.tail, hch]

/-! ### The main loop does not lift its own hold -/

/-- The micro-step of a hold that nothing lifts holds, whatever is drawn (R100 to R102). -/
theorem micro_of_heldForGood {m : Micro} {s : State} (h : heldForGood m s) (choice : Nat) : micro choice m s = .hold := by
  cases m with
  | push1 c b =>
    obtain ⟨-, hfull, -⟩ := h
    exact if_pos hfull
  | pop1 c =>
    obtain ⟨hempty, -⟩ := h
    exact if_pos hempty
  | block1 c bytes =>
    obtain ⟨-, hlong | ⟨hfree, -⟩⟩ := h
    · exact if_pos (Nat.lt_of_le_of_lt (Nat.sub_le _ _) hlong)
    · exact if_pos hfree
  | _ => exact h.elim

/-- A turn of the held main loop, of either grain, leaves the state as it was (R10). -/
theorem takeTurn_mainLoop_held {turn : Turn} {m : Micro} {s : State} (hturn : turn.isMainLoop = true) (hml : s.ml = .inOp m)
    (h : heldForGood m s) : takeTurn turn s = .next s := by
  cases turn with
  | mainLoop =>
    calc takeTurn .mainLoop s = runFrom m s := by simp only [takeTurn, mainLoopTurn, hml]
      _ = .next (s.setMl (.inOp m)) := runMicros_hold (micro_of_heldForGood h 0) _
      _ = .next s := by rw [State.setMl_self hml]
  | micro =>
    have hhold : micro (Config.freeChoice s.draws) m s.drawn = .hold := micro_of_heldForGood (s := s.drawn) h _
    simp only [takeTurn, microTurn, hml, oneMicro, hhold, settle]
  | host d | line d | deferred src => cases hturn

/-! ### A handler does not lift it -/

theorem HandlerRun.par_eq {s t : State} (h : HandlerRun s t) : t.par = s.par := by
  cases h with
  | none => rfl
  | read _ h => exact readHandler_par h
  | write _ h => exact writeHandler_par h
  | media _ h => exact mediaHandler_par h

/-- The read-strobe handler takes nothing while SR bypasses the channel, and the one value a handler can put into SR bypasses it
too (R130, R131). -/
theorem HandlerRun.outboundFrozen {s t : State} (h : HandlerRun s t) (hfrozen : s.outboundFrozen) :
    t.outb = s.outb ∧ t.outboundFrozen := by
  cases h with
  | none => exact ⟨rfl, hfrozen⟩
  | read hrd h =>
    obtain hmask | ⟨hbypass, hover⟩ := hfrozen
    · cases hmask.symm.trans hrd
    · obtain ⟨-, -, rfl⟩ | ⟨hterm, -⟩ | ⟨hterm, -⟩ := readHandler_ok.1 h
      · exact ⟨rfl, .inr ⟨hbypass, hover⟩⟩
      · cases hterm.symm.trans hbypass
      · cases hterm.symm.trans hbypass
  | write _ h =>
    obtain ⟨-, ht⟩ | ht := writeHandler_frame h
    · rw [ht]
      exact ⟨rfl, hfrozen.imp_right fun ⟨_, hover⟩ => ⟨hover, hover⟩⟩
    · rw [ht]
      exact ⟨rfl, hfrozen⟩
  | media _ h =>
    rw [mediaHandler_frame h]
    exact ⟨rfl, hfrozen⟩

/-- A handler runs while its source is enabled, so it touches no channel whose sources are masked; it enables none (R64, R132). -/
theorem HandlerRun.sourcesMasked {s t : State} {c : Channel} (h : HandlerRun s t) (hmask : s.sourcesMasked c = true) :
    t.chan c = s.chan c ∧ t.sourcesMasked c = true := by
  cases h with
  | none => exact ⟨rfl, hmask⟩
  | read hrd h =>
    cases c with
    | inbound =>
      rw [readHandler_frame h]
      exact ⟨rfl, hmask⟩
    | outbound => cases (State.sourcesMasked_outbound.1 hmask).symm.trans hrd
  | write hwr h =>
    cases c with
    | inbound =>
      obtain ⟨hmaskWr, -⟩ := State.sourcesMasked_inbound.1 hmask
      cases hmaskWr.symm.trans hwr
    | outbound =>
      obtain ⟨-, ht⟩ | ht := writeHandler_frame h
      · rw [ht]
        exact ⟨rfl, hmask⟩
      · rw [ht]
        exact ⟨rfl, hmask⟩
  | media hmp h =>
    cases c with
    | inbound =>
      obtain ⟨-, hmaskMp⟩ := State.sourcesMasked_inbound.1 hmask
      cases hmaskMp.symm.trans hmp
    | outbound =>
      rw [mediaHandler_frame h]
      exact ⟨rfl, hmask⟩

/-- A handler's run keeps the hold and the reason for it (R194, R197). -/
theorem HandlerRun.heldForGood {m : Micro} {s t : State} (h : HandlerRun s t) (hheld : heldForGood m s) : heldForGood m t := by
  cases m with
  | push1 c b =>
    obtain ⟨rfl, hfull, hfrozen⟩ := hheld
    obtain ⟨hout, hfrozen'⟩ := h.outboundFrozen hfrozen
    exact ⟨rfl, (State.full_congr (c := .outbound) h.par_eq hout).trans hfull, hfrozen'⟩
  | block1 c bytes =>
    obtain ⟨rfl, hlong | ⟨hfree, hfrozen⟩⟩ := hheld
    · exact ⟨rfl, .inl (by rwa [State.cap_congr h.par_eq])⟩
    · obtain ⟨hout, hfrozen'⟩ := h.outboundFrozen hfrozen
      exact ⟨rfl, .inr ⟨by rwa [State.free_congr (c := .outbound) h.par_eq hout], hfrozen'⟩⟩
  | pop1 c =>
    obtain ⟨hempty, hmask⟩ := hheld
    obtain ⟨hch, hmask'⟩ := h.sourcesMasked hmask
    exact ⟨(State.empty_congr hch).trans hempty, hmask'⟩
  | _ => exact hheld.elim

/-- Whether a hold is for good is no matter of pending bits, draws and the trace. -/
theorem HandlerTurn.heldForGood {m : Micro} {s t : State} (h : HandlerTurn s t) (hheld : heldForGood m s) :
    heldForGood m t := by
  obtain ⟨pend, draws, u, hrun, ht⟩ := h
  rw [ht]
  exact (hrun.heldForGood (m := m) hheld :)

/-- Settles O53: the main loop's turn holds again, and a turn outside it runs one handler at most. -/
theorem holdsThatNothingLifts : Obligations.HoldsThatNothingLifts := by
  intro s t m hml hheld hstep
  cases hturn : s.dueTurn.isMainLoop with
  | true =>
    have hsame : step s = .next { s with turns := s.turns.tail } :=
      takeTurn_mainLoop_held (s := { s with turns := s.turns.tail }) hturn hml hheld
    cases hsame.symm.trans hstep
    exact ⟨hml, hheld, rfl⟩
  | false =>
    have hhandler : HandlerTurn { s with turns := s.turns.tail } t := takeTurn_handlerTurn hturn hstep
    obtain ⟨hml', hprog, -⟩ := hhandler.mainLoop_eq
    exact ⟨hml'.trans hml, hhandler.heldForGood hheld, hprog⟩

/-! ### The boot order -/

/-- The boot order of an idle main loop sets SR and enables every source, and no other cell changes (R191). -/
theorem runOps_bootOps {s : State} (hml : s.ml = .idle) (v0 : Byte) :
    ∃ tr, runOps (bootOps v0) s =
      .next { s with sr := v0, ie := { rd := true, wr := true, mp := true }, trace := tr } :=
  ⟨_, calc
    runOps (bootOps v0) s = runOps [irqenOf .wr, irqenOf .rd, irqenOf .mp] _ := runOps_cons_next (exec_stwr_done hml v0)
    _ = runOps [irqenOf .rd, irqenOf .mp] _ := runOps_cons_next (exec_irqenOf_done (by exact hml) .wr)
    _ = runOps [irqenOf .mp] _ := runOps_cons_next (exec_irqenOf_done (by exact hml) .rd)
    _ = runOps [] _ := runOps_cons_next (exec_irqenOf_done (by exact hml) .mp)
    _ = _ := rfl⟩

/-- Clearing a channel that reset left empty at index 0 shows in the trace only (R106, R190). -/
theorem exec_clear_reset (c : Channel) (tr : List Obs) :
    exec (.clear c) { State.reset with trace := tr } =
      .next { State.reset with trace := .op (.clear c) .nothing :: tr } := by
  cases c with
  | inbound | outbound => exact exec_clear_done rfl rfl

/-- The two CLEARs of the longer boot order find both channels as reset left them (R191). -/
theorem runOps_bootOpsClearing_reset (v0 : Byte) :
    ∃ tr, runOps (bootOpsClearing v0) State.reset = runOps (bootOps v0) { State.reset with trace := tr } :=
  ⟨_, (runOps_cons_next (exec_clear_reset .inbound [])).trans (runOps_cons_next (exec_clear_reset .outbound _))⟩

/-- Settles O58: the boot order from the reset cells, at once or after the two CLEARs. -/
theorem bootSequences : Obligations.BootSequences := by
  intro v0
  refine ⟨?_, ?_⟩
  · obtain ⟨tr, hboot⟩ := runOps_bootOps (s := State.reset) rfl v0
    exact ⟨_, hboot, rfl⟩
  · obtain ⟨tr, hclear⟩ := runOps_bootOpsClearing_reset v0
    obtain ⟨tr', hboot⟩ := runOps_bootOps (s := { State.reset with trace := tr }) rfl v0
    exact ⟨_, hclear.trans hboot, rfl⟩

end Sys2Proof.Machine
